-- ==== Sys2Proof/Word.lean ====
section
/-! DEFINITION. The words of the Ivarta 5320 (R188): bytes, 16- and 32-bit words, show time, and tables of a fixed
number of like records. -/

namespace Sys2Proof

/-- One byte of a memory-resident record. -/
abbrev Byte := BitVec 8

/-- A 16-bit free-running index or tag (03, Conventions). -/
abbrev Index := BitVec 16

/-- A 32-bit word of a record. -/
abbrev Word := BitVec 32

/-- Show time: a 32-bit count of ms that wraps (00, Terms). -/
abbrev Time := BitVec 32

/-- A byte address carried by a transaction: 28 bits are used (01, 1.1). -/
abbrev Address := BitVec 28

/-- The numbers 0 to `n - 1` in rising order. -/
def fins : (n : Nat) → List (Fin n)
  | 0 => []
  | n + 1 => (fins n).map Fin.castSucc ++ [Fin.last n]

@[simp] theorem fins_length (n : Nat) : (fins n).length = n := by
  induction n with
  | zero => rfl
  | succ n ih => simp [fins, ih]

theorem fins_getElem (n i : Nat) (h : i < (fins n).length) :
    (fins n)[i] = ⟨i, by simpa using h⟩ := by
  induction n with
  | zero => simp [fins] at h
  | succ n ih =>
    have hn : i < n + 1 := by simpa using h
    simp only [fins]
    by_cases hi : i < n
    · rw [List.getElem_append_left (by simpa using hi)]
      simp [ih]
    · have : i = n := by omega
      subst this
      rw [List.getElem_append_right (by simp)]
      simp [Fin.ext_iff]

theorem mem_fins {n : Nat} (i : Fin n) : i ∈ fins n := by
  have h : i.val < (fins n).length := by simp
  have := List.getElem_mem h
  rwa [fins_getElem] at this

/-- A table built from what stands in each place. Irreducible: proofs read it through `tabulate_get`. -/
@[irreducible] def tabulate {α : Type} {n : Nat} (f : Fin n → α) : Vector α n :=
  ⟨⟨(fins n).map f⟩, by simp⟩

@[simp] theorem tabulate_get {α : Type} {n : Nat} (f : Fin n → α) (i : Fin n) :
    (tabulate f).get i = f i := by
  simp only [tabulate, Vector.get_eq_getElem, Vector.getElem_mk, List.getElem_toArray, List.getElem_map, fins_getElem]

/-- A table with one place rewritten. -/
def put {α : Type} {n : Nat} (v : Vector α n) (i : Fin n) (x : α) : Vector α n :=
  v.set i.val x i.isLt

@[simp] theorem put_get_same {α : Type} {n : Nat} (v : Vector α n) (i : Fin n) (x : α) :
    (put v i x).get i = x := by
  simp [put, Vector.get_eq_getElem]

theorem put_get_other {α : Type} {n : Nat} (v : Vector α n) {i j : Fin n} (x : α) (h : i ≠ j) :
    (put v i x).get j = v.get j := by
  have : i.val ≠ j.val := fun e => h (Fin.ext e)
  simp [put, Vector.get_eq_getElem, this]

theorem put_get {α : Type} {n : Nat} (v : Vector α n) (i j : Fin n) (x : α) :
    (put v i x).get j = if i = j then x else v.get j := by
  by_cases h : i = j
  · subst h; simp
  · simp [h, put_get_other]

/-- A table whose every place holds the same. -/
def filled {α : Type} (n : Nat) (x : α) : Vector α n := tabulate fun _ => x

@[simp] theorem filled_get {α : Type} {n : Nat} (x : α) (i : Fin n) : (filled n x).get i = x := by
  simp [filled]

end Sys2Proof
end

