-- ==== Sys2Proof/Syntax.lean ====
section
/-! DEFINITION. The commands of the block: one constructor per row of spec/opcode_table.json, in the table's order.
The table gives a row no operands; each constructor carries what its rule needs from outside the part. -/

namespace Sys2Proof

/-- The level of an input line or of a visitor input (R56). -/
inductive Level where
  | inactive
  | active
  deriving DecidableEq, Repr

/-- The class of a processor transaction (01, 1.1). -/
inductive TxClass where
  | showClass
  | serviceClass
  deriving DecidableEq, Repr

/-- A command: an operation or event of the table. -/
inductive Instr where
  /-- RESET asserted, or power-on (R23). -/
  | hardwareReset
  /-- RESET going high (R24). -/
  | resetRelease
  /-- A processor READ presented at the Upstream Port (R1). -/
  | forwardedReadArrives (addr : Address) (length : Nat) (cls : TxClass)
  /-- A processor WRITE whose last data beat is presented (R1). -/
  | forwardedWriteArrives (addr : Address) (length : Nat) (cls : TxClass) (data : List Byte)
  /-- A WRITE withdrawn after the beats in `data`, before its last (R2). -/
  | withdrawnWrite (addr : Address) (length : Nat) (cls : TxClass) (data : List Byte)
  /-- Memory's DATA for the forwarded READ (R3). -/
  | forwardedData (data : List Byte)
  /-- Memory's DONE for the forwarded WRITE (R17). -/
  | forwardedWriteDone
  /-- Memory's MEMORY ERROR for the forwarded access (R15). -/
  | memoryErrorForwarded
  /-- A directory line's DATA (R27). -/
  | directoryLineArrives (data : List Byte)
  | directoryReadFailed
  /-- A cue line's DATA (R42). -/
  | cueLineArrives (data : List Byte)
  | cueFetchFailed
  | consumerWriteDone
  | consumerWriteFailed
  /-- The cue rows: the take of the head of the Cue Queue, of the kind named (R44). -/
  | requestScene
  | stopScene
  | stopAll
  | closeZone
  | openZone
  | setLanguage
  | setBaseLevel
  | houseLights
  | homeAxis
  | holdShow
  | releaseShow
  | clearFault
  | enterSafe
  | leaveSafe
  | restoreShow
  | mark
  | unknownKind
  | failedEntryTake
  | reportRecordDone
  | reportWriteFailed
  | producerWriteDone
  | producerWriteFailed
  /-- Guard line G`line` goes active (R66). -/
  | guardInputActive (line : Fin 8)
  | guardInputInactive (line : Fin 8)
  | settleDeadline (zone : Fin 8)
  /-- Visitor line V`input` changes to `level` (R69). -/
  | visitorLineChange (input : Fin 24) (level : Level)
  | debounceDeadline (input : Fin 24)
  | cooldownDeadline (scene : Fin 32)
  | requestExpires (scene : Fin 32)
  /-- A script line's DATA (R94). -/
  | scriptLineArrives (data : List Byte)
  | scriptReadFailed
  /-- The step rows: the next step of the slot, of the kind named, falls due by the scene clock (R98). -/
  | lampStep (slot : Fin 8)
  | narrateStep (slot : Fin 8)
  | moveStep (slot : Fin 8)
  | waitStep (slot : Fin 8)
  | markStep (slot : Fin 8)
  | loopStep (slot : Fin 8)
  | endStep (slot : Fin 8)
  | scriptRunsOut (slot : Fin 8)
  | waitTimeout (slot : Fin 8)
  | lampFrame
  /-- A clip group record's DATA (R134). -/
  | clipGroupArrives (data : List Byte)
  /-- A clip line's DATA (R137). -/
  | clipLineArrives (data : List Byte)
  | clipReadFailed
  | sampleInstant
  | cutDeadline (voice : Fin 8)
  | homeSwitchActive (axis : Fin 12)
  | homeNotFound (axis : Fin 12)
  | arrival (axis : Fin 12)
  | moveTimeout (axis : Fin 12)
  | suspendingAtRest (axis : Fin 12)
  | haltEnds (axis : Fin 12)
  | suspendLimit (axis : Fin 12)
  /-- Stall line of the axis goes active (R159). -/
  | stall (axis : Fin 12)
  | powerWarning
  | faultPageLineDone
  | faultPageWriteFailed
  | snapshotLineDone
  | snapshotFailed
  /-- A snapshot line's DATA read for RESTORE SHOW (R187). -/
  | restoreLineArrives (data : List Byte)
  | restoreReadFailed
  | maximumSpeedReached (axis : Fin 12)
  | beginToSlow (axis : Fin 12)
  | directionReversal (axis : Fin 12)
  | stepPulse (axis : Fin 12)
  | unknownStepKind (slot : Fin 8)
  | powerWarningInactive
  | stallInputInactive (axis : Fin 12)
  | homeSwitchInactive (axis : Fin 12)
  deriving DecidableEq, Repr

end Sys2Proof
end

