-- ==== Sys2Proof/Decode.lean ====
section
/-! DEFINITION. Words that spell commands: the table gives no row any bits, so no word spells one (log 24). -/

namespace Sys2Proof

/-- The command a word of `nbits` bits spells: none, for spec/opcode_table.json gives its rows no bits. -/
def decodeTableWord (_nbits _w : Nat) : Option Instr := none

end Sys2Proof
end

