-- ==== Sys2Proof/Machine/Bytes.lean ====
section
/-! DEFINITION. Byte order (R188): every field of more than one byte is little-endian; reserved bytes are written as
zero (R189). -/

namespace Sys2Proof.Machine

/-- The byte at an offset; 0 beyond the record's end. -/
def byteAt (l : List Byte) (i : Nat) : Nat := (l.getD i 0).toNat

def word16At (l : List Byte) (i : Nat) : Nat := byteAt l i + 256 * byteAt l (i + 1)

def word32At (l : List Byte) (i : Nat) : Nat := word16At l i + 65536 * word16At l (i + 2)

def byteOf (n : Nat) : Byte := BitVec.ofNat 8 n

def bytes16 (n : Nat) : List Byte := [byteOf n, byteOf (n / 256)]

def bytes32 (n : Nat) : List Byte := [byteOf n, byteOf (n / 256), byteOf (n / 65536), byteOf (n / 16777216)]

def zeros (n : Nat) : List Byte := List.replicate n 0

/-- A record brought to its full length with zero bytes. -/
def padTo (n : Nat) (l : List Byte) : List Byte := l ++ zeros (n - l.length)

/-- A slice of a record. -/
def slice (l : List Byte) (start len : Nat) : List Byte := (l.drop start).take len

/-- Is member `n` in a field that holds a set? -/
def hasMember (set n : Nat) : Bool := set.testBit n

/-- Does a show time lie at or behind the present one? No deadline lies 2³¹ ms or more ahead. -/
def reached (deadline now : Time) : Bool := (now - deadline).toNat < 2147483648

/-- Ms from one show time to a later one, the wrap of the show time taken in. -/
def elapsedSince (since now : Time) : Nat := (now - since).toNat

/-- Show time some ms ahead. -/
def later (now : Time) (ms : Nat) : Time := now + BitVec.ofNat 32 ms

end Sys2Proof.Machine
end

