-- ==== Sys2Proof/Config.lean ====
section
/-! DEFINITION. What the spec fixes as a number for every part, and the free values it leaves open. -/

namespace Sys2Proof.Config

/-- A byte the spec gives no value: the scene byte of a FREE slot's entry in a snapshot image (R92 treats a FREE
slot's scene as absent; 12.8 places the byte). DESIGN CHOICE (log 15): no body, so no proof can see a value. -/
opaque freeByte : Nat → Byte

/-- The clock's end, 3,600,000 ms (R92, R97, R99). -/
def clockEnd : Nat := 3600000

/-- Steps a step buffer holds (R92). -/
def stepBufferSize : Nat := 8

/-- Entries of the Cue Queue (R39). -/
def cueQueueSize : Nat := 8

/-- Records of the Report Queue (R49). -/
def reportQueueSize : Nat := 16

/-- Records of the Request Queue (R74). -/
def requestQueueSize : Nat := 16

/-- Bytes of a voice's playback buffer (R131). -/
def voiceBufferSize : Nat := 4096

/-- Buffered bytes below which a refill is urgent (R21). -/
def urgentBelow : Nat := 1024

/-- Length of a cut, ms (R141). -/
def cutLength : Nat := 50

/-- Distance of frame events, ms (R120). -/
def framePeriod : Nat := 25

/-- Sample instants in each ms (R132). -/
def samplesPerMs : Nat := 24

/-- The largest forwarded-wait count (R22). -/
def forwardedBound : Nat := 4

/-- Lateness a step may have without a report, ms (R98). -/
def lateAllowed : Nat := 100

/-- Fade of a later take and of a restore, ms (R117, R128). -/
def settleFade : Nat := 1000

/-- Size of a clip bank (R130). -/
def clipBankSize : Nat := 1048576

/-- The memory size before any directory is taken, 256 MiB (R7, R24). -/
def standInMemory : Nat := 0x10000000

/-- The fixed tag of a valid snapshot marker (12.8). -/
def markerTag : Nat := 0x3C5AA5C3

/-- How many internal operations one event may need at most (log 27): far above what any event asks. -/
def agendaFuel : Nat := 8192

end Sys2Proof.Config
end

