-- ==== Sys2Proof/Machine/State.lean ====
section
/-! DEFINITION. Everything the spec gives the part to hold, as plain data, and the part right after hardware reset.
Each block's state stands in a structure of its own (00, Block overview). -/

namespace Sys2Proof.Machine

/-! ## Transactions and the two ports (file 01) -/

/-- Kind of a transaction; its code is READ 0, WRITE 1 (12.4). -/
inductive TxKind where
  | read
  | write
  deriving DecidableEq, Repr

/-- A processor transaction as presented: nothing is corrected (R1). -/
structure Transaction where
  kind : TxKind
  addr : Address
  length : Nat
  cls : TxClass
  data : List Byte
  deriving DecidableEq, Repr

/-- What the Upstream Port returns (R3). -/
inductive Response where
  | data (bytes : List Byte)
  | done
  | refused
  | memoryError
  deriving DecidableEq, Repr

/-- The Upstream Port (R1): the forwarded transaction, and the response last returned. -/
structure Upstream where
  held : Option Transaction
  response : Option Response
  deriving DecidableEq, Repr

/-- The requesters of class LOOKUP (01, 1.6). -/
inductive Looker where
  | directory
  | cueLine
  | clipGroup (voice : Fin 8)
  | restore
  deriving DecidableEq, Repr

/-- The requesters of class WRITEBACK (01, 1.6). -/
inductive Writer where
  | record
  | producer
  | consumer
  | page
  | snapshot
  deriving DecidableEq, Repr

/-- The four classes of the round robin (R20). -/
inductive RobinClass where
  | voice
  | script
  | lookup
  | writeback
  deriving DecidableEq, Repr

/-- A waiting read. -/
structure ReadRequest where
  addr : Nat
  length : Nat
  deriving DecidableEq, Repr

/-- A waiting LOOKUP read of one line. -/
structure Lookup where
  who : Looker
  addr : Nat
  deriving DecidableEq, Repr

/-- The Port Arbiter (R20, R22). -/
structure Arbiter where
  forwarded : Bool
  voice : Vector (Option ReadRequest) 8
  script : Vector (Option ReadRequest) 8
  lookups : List Lookup
  writebacks : List Writer
  voicePtr : Fin 8
  slotPtr : Fin 8
  classPtr : RobinClass
  forwardedWait : Nat
  deriving DecidableEq, Repr

/-- Whose transaction the Memory Port carries, with what the requester must know at its answer: the lost count carried
(R51), the index value written (R47, R52). -/
inductive Purpose where
  | forwarded
  | clipLine (voice : Fin 8)
  | script (slot : Fin 8)
  | directory
  | cueLine
  | clipGroup (voice : Fin 8)
  | restore
  | record (carried : Nat)
  | producer (value : Index)
  | consumer (value : Index)
  | page
  | snapshot
  deriving DecidableEq, Repr

/-- A transaction in flight on the Memory Port (R4). `live` is clear once its requester has discarded, disregarded or
abandoned it (R48, R54, R96, R143, R183, R185, R186). -/
structure InFlight where
  purpose : Purpose
  kind : TxKind
  addr : Nat
  length : Nat
  data : List Byte
  live : Bool
  deriving DecidableEq, Repr

/-! ## The Show Directory (files 02 and 12) -/

/-- A fault policy record, as written (12.2). -/
structure PolicyRecord where
  logEnable : Nat
  threshold : Nat
  deriving DecidableEq, Repr

structure ZoneRecord where
  enabled : Nat
  guardInput : Nat
  settleTime : Nat
  defaultLanguage : Nat
  languageInput : Nat
  deriving DecidableEq, Repr

structure WindowRecord where
  base : Nat
  limit : Nat
  kind : Nat
  deriving DecidableEq, Repr

structure InputRecord where
  kind : Nat
  scene : Nat
  zone : Nat
  deriving DecidableEq, Repr

structure AxisRecord where
  flags : Nat
  zone : Nat
  travelMin : Nat
  travelMax : Nat
  maxSpeed : Nat
  acceleration : Nat
  moveTimeLimit : Nat
  suspendLimit : Nat
  deriving DecidableEq, Repr

structure SceneRecord where
  flags : Nat
  cls : Nat
  policy : Nat
  zoneSet : Nat
  script : Nat
  steps : Nat
  waitLimit : Nat
  cooldown : Nat
  releaseFade : Nat
  deriving DecidableEq, Repr

structure ChannelRecord where
  zone : Nat
  base : Nat
  work : Nat
  deriving DecidableEq, Repr

/-- A directory, every field as the 4 KiB record holds it (12.2). -/
structure Directory where
  signature : Nat
  version : Nat
  languages : Nat
  lockOnTake : Nat
  sequence : Word
  memoryCode : Nat
  debounce : Nat
  cueBase : Nat
  cueSlots : Nat
  reportBase : Nat
  reportSlots : Nat
  faultPage : Nat
  snapshotArea : Nat
  clipTable : Nat
  clipGroups : Nat
  policies : Vector PolicyRecord 5
  zones : Vector ZoneRecord 8
  windows : Vector WindowRecord 12
  inputs : Vector InputRecord 24
  axes : Vector AxisRecord 12
  scenes : Vector SceneRecord 32
  channels : Vector ChannelRecord 128
  deriving DecidableEq, Repr

/-- The load state (R24). -/
inductive LoadState where
  | idle
  | loading (nextLine : Nat)
  deriving DecidableEq, Repr

/-- The Directory Unit (R24). -/
structure DirectoryUnit where
  taken : Option Directory
  image : List Byte
  load : LoadState
  locked : Bool
  sequence : Word
  deriving DecidableEq, Repr

/-- The Disposition Unit's copies (R11, R17). -/
structure Disposition where
  windows : Vector WindowRecord 12
  cueProducer : Word
  reportConsumer : Word
  reloadWord : Word
  deriving DecidableEq, Repr

/-! ## Rings (file 03) -/

/-- An entry of the Cue Queue (R39). -/
inductive CueEntry where
  | cue (index : Index) (kind : Byte) (tag : Index) (params : List Byte)
  | failed (index : Index)
  deriving DecidableEq, Repr

/-- The Cue Unit (R39). -/
structure CueUnit where
  accepted : Index
  fetched : Index
  consumer : Index
  queue : List CueEntry
  writePending : Bool
  deriving DecidableEq, Repr

/-- What made a request (R74). -/
inductive Origin where
  | trigger (input : Fin 24)
  | cue (tag : Index)
  | auto
  deriving DecidableEq, Repr

/-- Why a cue is refused (R46). -/
inductive Reason where
  | unknownKind
  | range
  | busy
  | zoneClosed
  | queueFull
  | reloading
  | wrongState
  | severeOutstanding
  deriving DecidableEq, Repr

/-- The result of a cue (R46). -/
inductive CueResult where
  | accepted
  | queued
  | merged
  | refused (reason : Reason)
  | failed
  deriving DecidableEq, Repr

/-- Why a slot leaves its scene (06, 6.5). -/
inductive EndReason where
  | completed
  | stopped
  | preempted
  | zoneClosed
  | scriptFault
  | scriptReadFailed
  | waitTimeout
  | axisFault
  | safe
  | reload
  deriving DecidableEq, Repr

/-- Why a request is dropped (12.10). -/
inductive DropReason where
  | disabled
  | zoneClosed
  | reloading
  | wrongState
  | queueFull
  | expired
  | stopped
  | safe
  | reload
  deriving DecidableEq, Repr

inductive ShowState where
  | start
  | unconfigured
  | run
  | hold
  | draining
  | safe
  deriving DecidableEq, Repr

inductive RestoreResult where
  | restored
  | invalid
  | failed
  | abandoned
  | busy
  deriving DecidableEq, Repr

inductive SnapshotReason where
  | hold
  | powerWarning
  deriving DecidableEq, Repr

/-- The five banks, in order (R179). -/
inductive Bank where
  | link
  | showBank
  | scene
  | voice
  | motion
  deriving DecidableEq, Repr

/-- Severities, in rising order. -/
inductive Severity where
  | notice
  | degraded
  | severe
  deriving DecidableEq, Repr

/-- The fault codes of the five banks, each bank's in the order of its row (11.2). -/
inductive FaultCode where
  | malformed
  | writeRefused
  | memoryErrorForwarded
  | memoryErrorInternal
  | directoryInvalid
  | directoryReadFailed
  | cueProducerOverrun
  | cueFetchFailed
  | reportWriteFailed
  | reportConsumerInvalid
  | faultPageWriteFailed
  | snapshotFailed
  | reloadIgnored
  | powerWarning
  | scriptFault
  | scriptReadFailed
  | stepLate
  | waitTimeout
  | starved
  | clipMissing
  | clipWrap
  | clipReadFailed
  | moveTimeout
  | homeNotFound
  | suspendLimit
  | stall
  | enclosureBreach
  deriving DecidableEq, Repr

/-- For whom an axis moves (R147). -/
inductive AxisOwner where
  | nobody
  | slot (k : Fin 8)
  | cue
  deriving DecidableEq, Repr

/-- A report record's own fields (03, 3.4). -/
inductive Record where
  | cueResult (index : Index) (tag : Index) (result : CueResult) (value : Word)
  | sceneStarted (scene : Fin 32) (slot : Fin 8) (origin : Origin) (restart : Bool)
  | sceneEnded (scene : Fin 32) (slot : Fin 8) (reason : EndReason)
  | requestDropped (scene : Fin 32) (origin : Origin) (reason : DropReason)
  | stepMark (scene : Fin 32) (slot : Fin 8) (step : Nat) (value : Word)
  | voiceStarved (voice : Fin 8) (owner : Option (Fin 8)) (clip : Nat)
  | axisHomed (axis : Fin 12) (owner : AxisOwner) (position : Nat)
  | fault (code : FaultCode) (detail : List Word)
  | showState (left : ShowState) (entered : ShowState)
  | reloadDone (sequence : Word) (locked : Bool) (cueRing : Bool) (reportRing : Bool)
  | restoreDone (result : RestoreResult) (count : Nat)
  | snapshotDone (reason : SnapshotReason) (sequence : Word)
  deriving DecidableEq, Repr

/-- A queued record with the show time of its production (R50). -/
structure QueuedRecord where
  record : Record
  time : Time
  deriving DecidableEq, Repr

/-- The Report Unit (R49, R55). -/
structure ReportUnit where
  queue : List QueuedRecord
  producer : Index
  consumer : Index
  lost : Nat
  writePending : Bool
  attention : Bool
  deriving DecidableEq, Repr

/-! ## Zones and inputs (file 04) -/

inductive GuardState where
  | clear
  | tripped
  | settling
  deriving DecidableEq, Repr

/-- A Zone Table record (R56). -/
structure Zone where
  closed : Bool
  owner : Option (Fin 8)
  reservation : Option (Fin 32)
  guard : GuardState
  settle : Option Time
  language : Nat
  cueHoming : List (Fin 12)
  deriving DecidableEq, Repr

/-- A visitor input record (R56). -/
structure VisitorInput where
  raw : Level
  debounced : Level
  deadline : Option Time
  deriving DecidableEq, Repr

/-- The levels of the input lines (R5): ACTIVE as each line's own active level says. -/
structure Lines where
  guard : Vector Level 8
  visitor : Vector Level 24
  home : Vector Level 12
  stall : Vector Level 12
  power : Level
  deriving DecidableEq, Repr

/-! ## Scene requests (file 05) -/

inductive RequestState where
  | waiting
  | preempting
  deriving DecidableEq, Repr

/-- A request record (R74). -/
structure Request where
  scene : Fin 32
  origin : Origin
  remaining : Nat
  single : Bool
  state : RequestState
  restart : Bool
  deriving DecidableEq, Repr

/-- The Request Unit (R74). `underWay` and `owed` are the model's own: one scan at a time (R80), and the ambient
re-requests of FREEs made during a scan, which follow it (R91). -/
structure RequestUnit where
  queue : List Request
  cooldown : Vector (Option Time) 32
  scanPending : Bool
  underWay : Bool
  owed : Nat
  deriving DecidableEq, Repr

/-! ## Scene slots (file 06) -/

inductive SlotState where
  | free
  | loading
  | running
  | held
  | stopping
  deriving DecidableEq, Repr

/-- Scene classes, in rising order (R83). -/
inductive SceneClass where
  | ambient
  | visitor
  | staff
  deriving DecidableEq, Repr

/-- What a slot that is not FREE holds (R92). -/
structure Holding where
  scene : Fin 32
  cls : SceneClass
  startTime : Time
  deriving DecidableEq, Repr

/-- A script step as read: its 16 bytes (R94, 12.6). -/
structure Step where
  bytes : List Byte
  deriving DecidableEq, Repr

/-- The condition of a WAIT step (R103). -/
inductive Condition where
  | voice (zone : Fin 8)
  | axis (axis : Fin 12)
  | input (input : Fin 24) (level : Level)
  deriving DecidableEq, Repr

/-- A slot's wait (R92, R103). `stops` is the on-timeout STOP. -/
structure Wait where
  condition : Condition
  remaining : Option Nat
  stops : Bool
  deriving DecidableEq, Repr

/-- A loop record (R106). -/
structure LoopRecord where
  index : Nat
  remaining : Nat
  deriving DecidableEq, Repr

/-- A scene slot (R92); `savedClock` is the clock a restored slot keeps until its load ends (R115). -/
structure Slot where
  state : SlotState
  holding : Option Holding
  clock : Nat
  next : Nat
  fetch : Nat
  buffer : List Step
  lines : Nat
  wait : Option Wait
  loop : Option LoopRecord
  endReason : Option EndReason
  savedClock : Option Nat
  deriving DecidableEq, Repr

/-! ## Lamps (file 07) -/

/-- A fade record (R116): running since a show time, or frozen (none). -/
structure Fade where
  start : Nat
  target : Nat
  duration : Nat
  elapsed : Nat
  since : Option Time
  deriving DecidableEq, Repr

/-- A channel record (R116). -/
structure Channel where
  level : Nat
  fade : Option Fade
  owner : Option (Fin 8)
  releasing : Bool
  base : Nat
  work : Nat
  zone : Option (Fin 8)
  deriving DecidableEq, Repr

/-- The Lamp Unit (R116, R120). -/
structure LampUnit where
  channels : Vector Channel 128
  houseLights : Bool
  nextFrame : Option Time
  frames : Vector (List Byte) 4
  deriving DecidableEq, Repr

/-! ## Voices (file 08) -/

inductive VoiceState where
  | idle
  | lookup
  | fetching
  | playing
  | starved
  | paused
  | draining
  | stopping
  deriving DecidableEq, Repr

/-- The state a PAUSED voice returns to (R131). -/
inductive ResumeVoice where
  | playing
  | starved
  | draining
  deriving DecidableEq, Repr

/-- The variant chosen (R131). -/
structure Clip where
  address : Nat
  length : Nat
  bank : Nat
  gain : Nat
  deriving DecidableEq, Repr

/-- A voice (R131); the buffered count is the length of `buffer`. `output` is the sample on the audio output (R132);
`muted` tells that its cut began in silence (R141, log 39). -/
structure Voice where
  state : VoiceState
  owner : Option (Fin 8)
  group : Option Nat
  clip : Option Clip
  fetchPos : Nat
  playPos : Nat
  buffer : List Byte
  starvedReported : Bool
  resumeTo : Option ResumeVoice
  cutDeadline : Option Time
  pendingGroup : Option Nat
  output : BitVec 16
  muted : Bool
  deriving DecidableEq, Repr

/-! ## Axes (file 09) -/

/-- An exact real number: the profile is exact in show time (R149), and its instants need square roots. Read as
`num / den`, sums, products and square roots (log 9). -/
inductive Exact where
  | frac (num : Int) (den : Nat)
  | add (x y : Exact)
  | mul (x y : Exact)
  | root (x : Exact)
  deriving DecidableEq, Repr

/-- The parts of a motion's profile (R149): on the ramp up, at maximum speed, slowing to the target, slowing to turn
back, slowing because suspended or halted, at rest with the motion interrupted. -/
inductive RunKind where
  | speedingUp
  | constant
  | slowing
  | turning
  | stopping
  | resting
  deriving DecidableEq, Repr

/-- The part of the profile an axis is on: the instant it began (ms of profile time), the place and the speed it began
with, and, for a part that slows, the place where it comes to rest. -/
structure Run where
  kind : RunKind
  since : Exact
  place : Exact
  speed : Exact
  rest : Exact
  deriving DecidableEq, Repr

inductive AxisState where
  | unhomed
  | homing
  | idle
  | moving
  | suspending
  | suspended
  | halting
  | faulted
  deriving DecidableEq, Repr

inductive Direction where
  | lower
  | higher
  deriving DecidableEq, Repr

inductive ResumeAxis where
  | moving
  | homing
  deriving DecidableEq, Repr

inductive LastResult where
  | done
  | abandoned
  | timeout
  | stall
  | halted
  deriving DecidableEq, Repr

/-- A reason an axis may not move (R147). -/
inductive SuspendReason where
  | guard
  | hold
  deriving DecidableEq, Repr

/-- An axis (R147); `origin`, `run`, `profileMs` and `timedOut` tell the motion under way (R149, R152). -/
structure Axis where
  state : AxisState
  position : Nat
  direction : Direction
  homed : Bool
  driverEnabled : Bool
  owner : AxisOwner
  target : Option Nat
  pendingMove : Option Nat
  elapsed : Nat
  guardReason : Bool
  holdReason : Bool
  resumeTo : Option ResumeAxis
  suspendedSince : Option Time
  suspendedTotal : Nat
  lastResult : Option LastResult
  origin : Nat
  run : Option Run
  profileMs : Nat
  timedOut : Bool
  deriving DecidableEq, Repr

/-! ## Pins (file 10) -/

/-- From `base` up to, not including, `limit` (R165). -/
structure Extent where
  base : Nat
  limit : Nat
  deriving DecidableEq, Repr

/-- A pin entry (R165). -/
structure Pin where
  first : Extent
  second : Option Extent
  deriving DecidableEq, Repr

/-! ## Faults and Show Control (file 11) -/

/-- A fault bank record (R179). -/
structure BankRecord where
  valid : Bool
  severity : Option Severity
  code : Option FaultCode
  detail : List Word
  time : Time
  overflow : Bool
  showStateLost : Bool
  deriving DecidableEq, Repr

/-- The Fault Unit (R179, R183): `writer` is the line being written, none when idle. -/
structure FaultUnit where
  banks : Vector BankRecord 5
  dirty : Bool
  writer : Option Nat
  deriving DecidableEq, Repr

/-- A snapshot being written (R185): lines 0 to 14 of the image, and which of the 17 writes, 0 to 16, is due. -/
structure Snapshot where
  image : List Byte
  reason : SnapshotReason
  sequence : Word
  due : Nat
  deriving DecidableEq, Repr

/-- A restore read (R186): the marker is due while `line` is none, then lines 0 to 14; `read` holds those arrived. -/
structure Restore where
  line : Option Nat
  read : List Byte
  deriving DecidableEq, Repr

/-- Show Control (R172). -/
structure ShowControl where
  state : ShowState
  safePending : Bool
  snapshot : Option Snapshot
  restore : Option Restore
  deriving DecidableEq, Repr

/-! ## The whole part -/

structure State where
  pending : List Instr
  showTime : Time
  resetLow : Bool
  lines : Lines
  up : Upstream
  arb : Arbiter
  port : Option InFlight
  disp : Disposition
  dir : DirectoryUnit
  cue : CueUnit
  report : ReportUnit
  zones : Vector Zone 8
  inputs : Vector VisitorInput 24
  req : RequestUnit
  slots : Vector Slot 8
  lamp : LampUnit
  voices : Vector Voice 8
  sampleCount : Nat
  axes : Vector Axis 12
  pins : Vector (Option Pin) 16
  fault : FaultUnit
  ctl : ShowControl
  freeDraws : Nat
  deriving DecidableEq, Repr

/-- The model never stops: every command the spec lists has an effect, and the spec's faults are bank records (R179). -/
inductive Fault where
  deriving DecidableEq, Repr

/-- Why the model has no meaning for a command. -/
inductive Refusal where
  /-- The arm has no meaning yet; raised by exec alone. Safe: nothing can be proved of such a command. -/
  | notModelled (mnemonic : String)
  deriving DecidableEq, Repr

/-- What a step answers. -/
abbrev Answer := Host.Outcome State Fault Refusal

/-! ## Hardware reset -/

def WindowRecord.unused : WindowRecord := ⟨0, 0, 0⟩

def Arbiter.reset : Arbiter :=
  { forwarded := false, voice := filled 8 none, script := filled 8 none, lookups := [], writebacks := [],
    voicePtr := 7, slotPtr := 7, classPtr := .writeback, forwardedWait := 0 }

def Disposition.reset : Disposition := ⟨filled 12 .unused, 0, 0, 0⟩

def DirectoryUnit.reset : DirectoryUnit := ⟨none, [], .idle, false, 0⟩

def CueUnit.reset : CueUnit := ⟨0, 0, 0, [], false⟩

def ReportUnit.reset : ReportUnit := ⟨[], 0, 0, 0, false, false⟩

def Zone.reset : Zone := ⟨false, none, none, .clear, none, 0, []⟩

def VisitorInput.reset : VisitorInput := ⟨.inactive, .inactive, none⟩

def RequestUnit.reset : RequestUnit := ⟨[], filled 32 none, false, false, 0⟩

def Slot.reset : Slot := ⟨.free, none, 0, 0, 0, [], 0, none, none, none, none⟩

def Channel.reset : Channel := ⟨0, none, none, false, 0, 0, none⟩

def LampUnit.reset : LampUnit := ⟨filled 128 .reset, false, none, filled 4 []⟩

def Voice.reset : Voice := ⟨.idle, none, none, none, 0, 0, [], false, none, none, none, 0, false⟩

/-- R148; the direction is DESIGN CHOICE (log 7). -/
def Axis.reset : Axis :=
  { state := .unhomed, position := 0, direction := .lower, homed := false, driverEnabled := false, owner := .nobody,
    target := none, pendingMove := none, elapsed := 0, guardReason := false, holdReason := false, resumeTo := none,
    suspendedSince := none, suspendedTotal := 0, lastResult := none, origin := 0, run := none, profileMs := 0,
    timedOut := false }

def BankRecord.invalid : BankRecord := ⟨false, none, none, [], 0, false, false⟩

def FaultUnit.reset : FaultUnit := ⟨filled 5 .invalid, false, none⟩

def ShowControl.reset : ShowControl := ⟨.start, false, none, none⟩

/-- The levels unconnected lines read as (R5); HOME and PWARN inactive are DESIGN CHOICE (log 4). -/
def Lines.unconnected : Lines :=
  ⟨filled 8 .active, filled 24 .inactive, filled 12 .inactive, filled 12 .active, .inactive⟩

/-- The part with RESET just asserted (R23, R24, R39, R49, R57, R74, R92, R116, R131, R148, R165, R172, R179). -/
def State.reset : State :=
  { pending := [], showTime := 0, resetLow := true, lines := .unconnected, up := ⟨none, none⟩, arb := .reset,
    port := none, disp := .reset, dir := .reset, cue := .reset, report := .reset, zones := filled 8 .reset,
    inputs := filled 24 .reset, req := .reset, slots := filled 8 .reset, lamp := .reset, voices := filled 8 .reset,
    sampleCount := 0, axes := filled 12 .reset, pins := filled 16 none, fault := .reset, ctl := .reset, freeDraws := 0 }

end Sys2Proof.Machine
end

