-- ==== Sys2Proof/Machine/Task.lean ====
section
/-! DEFINITION. The names of the operations one block asks of another inside an event, and of the kinds of cues and
steps. An event is a list of such tasks, each carried out whole before the next (Machine/Agenda.lean). -/

namespace Sys2Proof.Machine

/-- The sixteen cue kinds (R45). -/
inductive CueKind where
  | requestScene
  | stopScene
  | stopAll
  | closeZone
  | openZone
  | setLanguage
  | setBaseLevel
  | houseLights
  | homeAxis
  | holdShow
  | releaseShow
  | clearFault
  | enterSafe
  | leaveSafe
  | restoreShow
  | mark
  deriving DecidableEq, Repr

/-- The seven step kinds (06, 6.4). -/
inductive StepKind where
  | lamp
  | narrate
  | move
  | wait
  | mark
  | loop
  | finish
  deriving DecidableEq, Repr

/-- What one block asks of another, or of itself, inside one event. -/
inductive Task where
  /-- A stop of a slot (R108). -/
  | stopSlot (k : Fin 8) (reason : EndReason)
  /-- The wound-down test of a slot and its FREE (R109, R110). -/
  | testWound (k : Fin 8)
  /-- The run of due steps of a slot (R98); `arrived` is the first step whose line arrived in this event. -/
  | takeSteps (k : Fin 8) (arrived : Option Nat)
  /-- Evaluate a waiting slot's condition (R104). -/
  | wakeSlot (k : Fin 8)
  /-- End a slot's load if it is complete (R95). -/
  | endLoad (k : Fin 8) (arrived : Option Nat)
  /-- Restart a slot (R112). -/
  | restart (k : Fin 8)
  /-- Stop a restored slot whose saved entry is invalid (R115). -/
  | faultRestored (k : Fin 8)
  /-- Every HELD slot becomes RUNNING (R113). -/
  | releaseSlots
  /-- Cut a voice (R141). -/
  | cutVoice (v : Fin 8)
  /-- A voice's part of a sample instant (R132). -/
  | sampleVoice (v : Fin 8)
  /-- A voice becomes IDLE (R139). -/
  | idleVoice (v : Fin 8)
  /-- PAUSED voices resume (R145). -/
  | resumeVoices
  /-- Halt an axis (R160). -/
  | haltAxis (n : Fin 12)
  /-- A halt has come to rest (R152, R160). -/
  | endHalt (n : Fin 12)
  /-- An axis gives up its owner (R162). -/
  | giveUpAxis (n : Fin 12)
  /-- A move has reached its target (R152). -/
  | arrive (n : Fin 12)
  /-- A homing finds its switch (R153). -/
  | findHome (n : Fin 12)
  /-- A reason joins an axis (R155). -/
  | addReason (n : Fin 12) (r : SuspendReason)
  /-- A reason leaves an axis (R156). -/
  | removeReason (n : Fin 12) (r : SuspendReason)
  /-- A HOME AXIS cue takes an axis (R154). -/
  | homeByCue (n : Fin 12)
  /-- The end of a HOME AXIS cue's taking (log 14). -/
  | endHoming
  /-- A stall found at a take (R164). -/
  | stallAtTake (n : Fin 12)
  /-- Steps 4 and 5 of a stall (R159). -/
  | stopStalled (n : Fin 12)
  /-- SAFE entry at an axis (R161). -/
  | safeAxis (n : Fin 12)
  /-- SAFE entry from HOLD removes HOLD (R161). -/
  | clearHold
  /-- A channel is given back at the end of its release fade (R119). -/
  | giveUpChannel (c : Fin 128)
  /-- SAFE entry at a channel (R127). -/
  | safeChannel (c : Fin 128)
  /-- A scan is asked for (R80). -/
  | askScan
  /-- A PREEMPTING request is judged (R81). -/
  | judgePreempting (scene : Fin 32)
  /-- The scan goes on to its WAITING phase. -/
  | waitingPhase
  /-- A WAITING request is judged (R82, R83). -/
  | judgeWaiting (scene : Fin 32)
  /-- The end of a scan (R80, R87). -/
  | endScan
  /-- An ambient re-request (R91). -/
  | reRequest
  /-- An AUTO request (R91). -/
  | autoRequest (scene : Fin 32)
  /-- Every queued request is removed (R90). -/
  | dropAll (reason : DropReason)
  /-- The test of the end of DRAINING (R174). -/
  | quietTest
  /-- The SAFE trigger reaches Show Control (R177, R181). -/
  | safeTrigger
  /-- Show Control moves out of START (R172, R173). -/
  | leaveStart (taken : Bool)
  /-- A snapshot is started (R184). -/
  | startSnapshot (reason : SnapshotReason)
  deriving DecidableEq, Repr

end Sys2Proof.Machine
end

