-- ==== Sys2Proof/Machine/Operands.lean ====
section
/-! DEFINITION. Every operand form: the value codes (12.10, 12.4), the parameters of cues (12.3), the arguments of script
steps (12.6) and the variants of clip groups (12.5). -/

namespace Sys2Proof.Machine

/-- A number as a member of a numbered group, when it is one. -/
def numbered (n x : Nat) : Option (Fin n) := if h : x < n then some ⟨x, h⟩ else none

/-- Zones of a zone set (R188: member z is bit z). -/
def zonesOf (set : Nat) : List (Fin 8) := (fins 8).filter fun z => hasMember set z.val

/-! ## Value codes -/

def TxKind.code : TxKind → Nat
  | .read => 0
  | .write => 1

def classCode : TxClass → Nat
  | .showClass => 0
  | .serviceClass => 1

def ShowState.code : ShowState → Nat
  | .start => 0
  | .unconfigured => 1
  | .run => 2
  | .hold => 3
  | .draining => 4
  | .safe => 5

def Bank.place : Bank → Fin 5
  | .link => 0
  | .showBank => 1
  | .scene => 2
  | .voice => 3
  | .motion => 4

def Bank.ofCode : Nat → Option Bank
  | 0 => some .link
  | 1 => some .showBank
  | 2 => some .scene
  | 3 => some .voice
  | 4 => some .motion
  | _ => none

def Severity.code : Severity → Nat
  | .notice => 1
  | .degraded => 2
  | .severe => 3

/-- The bank of a fault code (11.2). -/
def FaultCode.bank : FaultCode → Bank
  | .malformed | .writeRefused | .memoryErrorForwarded | .memoryErrorInternal => .link
  | .directoryInvalid | .directoryReadFailed | .cueProducerOverrun | .cueFetchFailed | .reportWriteFailed
  | .reportConsumerInvalid | .faultPageWriteFailed | .snapshotFailed | .reloadIgnored | .powerWarning => .showBank
  | .scriptFault | .scriptReadFailed | .stepLate | .waitTimeout => .scene
  | .starved | .clipMissing | .clipWrap | .clipReadFailed => .voice
  | .moveTimeout | .homeNotFound | .suspendLimit | .stall | .enclosureBreach => .motion

/-- Its severity (11.2). -/
def FaultCode.severity : FaultCode → Severity
  | .malformed | .writeRefused | .memoryErrorForwarded => .notice
  | .memoryErrorInternal => .degraded
  | .directoryInvalid | .directoryReadFailed | .cueProducerOverrun | .cueFetchFailed | .reportWriteFailed => .degraded
  | .reportConsumerInvalid => .notice
  | .faultPageWriteFailed => .degraded
  | .snapshotFailed | .reloadIgnored | .powerWarning => .notice
  | .scriptFault | .scriptReadFailed => .degraded
  | .stepLate | .waitTimeout => .notice
  | .starved | .clipMissing | .clipWrap => .notice
  | .clipReadFailed => .degraded
  | .moveTimeout | .homeNotFound => .degraded
  | .suspendLimit => .notice
  | .stall | .enclosureBreach => .severe

/-- Its number: its position in its bank's row, counting from 1 (12.10). -/
def FaultCode.code : FaultCode → Nat
  | .malformed => 1
  | .writeRefused => 2
  | .memoryErrorForwarded => 3
  | .memoryErrorInternal => 4
  | .directoryInvalid => 1
  | .directoryReadFailed => 2
  | .cueProducerOverrun => 3
  | .cueFetchFailed => 4
  | .reportWriteFailed => 5
  | .reportConsumerInvalid => 6
  | .faultPageWriteFailed => 7
  | .snapshotFailed => 8
  | .reloadIgnored => 9
  | .powerWarning => 10
  | .scriptFault => 1
  | .scriptReadFailed => 2
  | .stepLate => 3
  | .waitTimeout => 4
  | .starved => 1
  | .clipMissing => 2
  | .clipWrap => 3
  | .clipReadFailed => 4
  | .moveTimeout => 1
  | .homeNotFound => 2
  | .suspendLimit => 3
  | .stall => 4
  | .enclosureBreach => 5

def Reason.code : Reason → Nat
  | .unknownKind => 1
  | .range => 2
  | .busy => 3
  | .zoneClosed => 4
  | .queueFull => 5
  | .reloading => 6
  | .wrongState => 7
  | .severeOutstanding => 8

def CueResult.code : CueResult → Nat
  | .accepted => 0
  | .queued => 1
  | .merged => 2
  | .refused _ => 3
  | .failed => 4

/-- The reason byte; 0 where the result is not REFUSED (12.4). -/
def CueResult.reasonCode : CueResult → Nat
  | .refused r => r.code
  | .accepted | .queued | .merged | .failed => 0

def Origin.code : Origin → Nat
  | .trigger _ => 0
  | .cue _ => 1
  | .auto => 2

/-- Input number or tag; 0 for AUTO (12.4). -/
def Origin.detail : Origin → Nat
  | .trigger i => i.val
  | .cue t => t.toNat
  | .auto => 0

def EndReason.code : EndReason → Nat
  | .completed => 0
  | .stopped => 1
  | .preempted => 2
  | .zoneClosed => 3
  | .scriptFault => 4
  | .scriptReadFailed => 5
  | .waitTimeout => 6
  | .axisFault => 7
  | .safe => 8
  | .reload => 9

def DropReason.code : DropReason → Nat
  | .disabled => 0
  | .zoneClosed => 1
  | .reloading => 2
  | .wrongState => 3
  | .queueFull => 4
  | .expired => 5
  | .stopped => 6
  | .safe => 7
  | .reload => 8

def RestoreResult.code : RestoreResult → Nat
  | .restored => 0
  | .invalid => 1
  | .failed => 2
  | .abandoned => 3
  | .busy => 4

def SnapshotReason.code : SnapshotReason → Nat
  | .hold => 0
  | .powerWarning => 1

def SlotState.code : SlotState → Nat
  | .free => 0
  | .loading => 1
  | .running => 2
  | .held => 3
  | .stopping => 4

def AxisState.code : AxisState → Nat
  | .unhomed => 0
  | .homing => 1
  | .idle => 2
  | .moving => 3
  | .suspending => 4
  | .suspended => 5
  | .halting => 6
  | .faulted => 7

def Direction.code : Direction → Nat
  | .lower => 0
  | .higher => 1

def AxisOwner.code : AxisOwner → Nat
  | .slot k => k.val
  | .cue => 0xFE
  | .nobody => 0xFF

/-- A slot owner as a number, or none. -/
def ownerCode : Option (Fin 8) → Nat
  | some k => k.val
  | none => 0xFF

def SceneClass.ofCode : Nat → SceneClass
  | 0 => .ambient
  | 1 => .visitor
  | _ => .staff

def SceneClass.rank : SceneClass → Nat
  | .ambient => 0
  | .visitor => 1
  | .staff => 2

/-- A requester class's code (12.4). -/
def Purpose.classCode : Purpose → Nat
  | .forwarded => 0
  | .clipLine _ => 1
  | .script _ => 2
  | .directory | .cueLine | .clipGroup _ | .restore => 3
  | .record _ | .producer _ | .consumer _ | .page | .snapshot => 4

/-- The reasons of an axis as a set: GUARD member 0, HOLD member 1 (12.4). -/
def Axis.reasonCode (a : Axis) : Nat := a.guardReason.toNat + 2 * a.holdReason.toNat

/-- A fault detail: five words, the named fields first and zeros after (12.4). -/
def detailWords (l : List Nat) : List Word := ((l ++ List.replicate 5 0).take 5).map (BitVec.ofNat 32)

/-! ## Cues -/

def CueKind.ofByte (b : Byte) : Option CueKind :=
  match b.toNat with
  | 1 => some .requestScene
  | 2 => some .stopScene
  | 3 => some .stopAll
  | 4 => some .closeZone
  | 5 => some .openZone
  | 6 => some .setLanguage
  | 7 => some .setBaseLevel
  | 8 => some .houseLights
  | 9 => some .homeAxis
  | 10 => some .holdShow
  | 11 => some .releaseShow
  | 12 => some .clearFault
  | 13 => some .enterSafe
  | 14 => some .leaveSafe
  | 15 => some .restoreShow
  | 16 => some .mark
  | _ => none

/-- The parameter byte at a slot offset (parameters begin at offset 4). -/
def paramByte (params : List Byte) (offset : Nat) : Nat := byteAt params (offset - 4)

def param16 (params : List Byte) (offset : Nat) : Nat := word16At params (offset - 4)

def param32 (params : List Byte) (offset : Nat) : Nat := word32At params (offset - 4)

/-- Which axes a HOME AXIS cue names. -/
inductive AxisChoice where
  | one (n : Fin 12)
  | all
  deriving DecidableEq, Repr

/-- Parameters of a SET BASE LEVEL cue within the fixed ranges of R45. -/
structure BaseLevel where
  first : Nat
  count : Nat
  level : Nat
  fade : Nat
  deriving DecidableEq, Repr

def sceneParam (params : List Byte) : Option (Fin 32) := numbered 32 (paramByte params 4)

def zoneParam (params : List Byte) : Option (Fin 8) := numbered 8 (paramByte params 4)

def languageParam (params : List Byte) : Option (Fin 4) := numbered 4 (paramByte params 5)

def baseLevelParam (params : List Byte) : Option BaseLevel :=
  let b : BaseLevel := ⟨paramByte params 4, paramByte params 5, param16 params 6, param16 params 8⟩
  if b.first ≤ 127 ∧ 1 ≤ b.count ∧ b.count ≤ 128 ∧ b.first + b.count ≤ 128 ∧ b.level ≤ 1000 ∧ b.fade ≤ 60000 then some b
  else none

def switchParam (params : List Byte) : Option Bool :=
  match paramByte params 4 with
  | 0 => some false
  | 1 => some true
  | _ => none

def axisParam (params : List Byte) : Option AxisChoice :=
  if paramByte params 4 = 0xFF then some .all else (numbered 12 (paramByte params 4)).map .one

def bankParam (params : List Byte) : Option Bank := Bank.ofCode (paramByte params 4)

/-! ## Script steps -/

def StepKind.ofCode : Nat → Option StepKind
  | 1 => some .lamp
  | 2 => some .narrate
  | 3 => some .move
  | 4 => some .wait
  | 5 => some .mark
  | 6 => some .loop
  | 7 => some .finish
  | _ => none

def Step.offset (t : Step) : Nat := word32At t.bytes 0

def Step.kind (t : Step) : Option StepKind := StepKind.ofCode (byteAt t.bytes 4)

def Step.firstChannel (t : Step) : Nat := byteAt t.bytes 6

def Step.channelCount (t : Step) : Nat := byteAt t.bytes 7

def Step.level (t : Step) : Nat := word16At t.bytes 8

def Step.fade (t : Step) : Nat := word16At t.bytes 10

/-- Zone, axis or input number of a NARRATE, MOVE or WAIT step. -/
def Step.subject (t : Step) : Nat := byteAt t.bytes 6

def Step.group (t : Step) : Nat := word16At t.bytes 8

def Step.position (t : Step) : Nat := word16At t.bytes 8

def Step.conditionCode (t : Step) : Nat := byteAt t.bytes 5

def Step.levelCode (t : Step) : Nat := byteAt t.bytes 7

def Step.timeout (t : Step) : Nat := word32At t.bytes 8

def Step.onTimeout (t : Step) : Nat := byteAt t.bytes 12

def Step.value (t : Step) : Word := BitVec.ofNat 32 (word32At t.bytes 8)

def Step.loopTarget (t : Step) : Nat := word16At t.bytes 6

def Step.loopCount (t : Step) : Nat := word16At t.bytes 8

def Step.targetOffset (t : Step) : Nat := word32At t.bytes 12

/-- The condition a WAIT step names; the level byte is read for INPUT alone (12.6). -/
def Step.condition (t : Step) : Option Condition :=
  match t.conditionCode with
  | 0 => (numbered 8 t.subject).map .voice
  | 1 => (numbered 12 t.subject).map .axis
  | 2 =>
    match t.levelCode with
    | 0 => (numbered 24 t.subject).map fun i => .input i .inactive
    | 1 => (numbered 24 t.subject).map fun i => .input i .active
    | _ => none
  | _ => none

/-! ## Clip groups -/

/-- Variant `v` of a clip group record, when it is present (R130). The address is 28 bits (12.5). -/
def variantOf (line : List Byte) (v : Nat) : Option Clip :=
  let base := 16 * v
  let address := word32At line base % 0x10000000
  let length := word32At line (base + 4)
  if length < 2 ∨ Config.clipBankSize < length then none
  else
    some
      { address := address, length := length - length % 2, bank := address - address % Config.clipBankSize,
        gain := min 100 (byteAt line (base + 8)) }

/-- The variant chosen for a language: its own, else variant 0 (R134). -/
def chooseVariant (line : List Byte) (language : Nat) : Option Clip :=
  match variantOf line language with
  | some c => some c
  | none => variantOf line 0

/-- Does the clip cross the end of its clip bank (R135)? -/
def Clip.crosses (c : Clip) : Bool := c.bank + Config.clipBankSize < c.address + c.length

/-- The pin of a clip (R135). -/
def Clip.pin (c : Clip) : Pin :=
  if c.crosses then
    { first := ⟨c.address, c.bank + Config.clipBankSize⟩,
      second := some ⟨c.bank, c.bank + (c.address + c.length - c.bank - Config.clipBankSize)⟩ }
  else { first := ⟨c.address, c.address + c.length⟩, second := none }

/-- Where clip byte `i` lies (R135). -/
def Clip.byteAddress (c : Clip) (i : Nat) : Nat := c.bank + (c.address - c.bank + i) % Config.clipBankSize

/-- The read from clip byte `i`: to the end of its line or of the clip (R136). -/
def Clip.readFrom (c : Clip) (i : Nat) : ReadRequest :=
  let a := c.byteAddress i
  ⟨a, min (64 - a % 64) (c.length - i)⟩

end Sys2Proof.Machine
end

