-- ==== Sys2Proof/Machine/Formats.lean ====
section
/-! DEFINITION. The memory-resident formats the part reads and writes whole: report records (12.4), cue slots (12.3), the
directory (12.2), the Fault Page (12.7), the Snapshot Area (12.8), and the lamp link frame (R190). -/

namespace Sys2Proof.Machine

/-! ## Report records -/

def Record.kindCode : Record → Nat
  | .cueResult .. => 1
  | .sceneStarted .. => 2
  | .sceneEnded .. => 3
  | .requestDropped .. => 4
  | .stepMark .. => 5
  | .voiceStarved .. => 6
  | .axisHomed .. => 7
  | .fault .. => 8
  | .showState .. => 9
  | .reloadDone .. => 10
  | .restoreDone .. => 11
  | .snapshotDone .. => 12

/-- The kind's own fields, from offset 8 on (12.4). -/
def Record.ownBytes : Record → List Byte
  | .cueResult index tag result value =>
    bytes16 index.toNat ++ bytes16 tag.toNat ++ [byteOf result.code, byteOf result.reasonCode, 0, 0] ++ bytes32 value.toNat
  | .sceneStarted scene slot origin restart =>
    [byteOf scene, byteOf slot, byteOf origin.code, byteOf restart.toNat] ++ bytes16 origin.detail
  | .sceneEnded scene slot reason => [byteOf scene, byteOf slot, byteOf reason.code]
  | .requestDropped scene origin reason =>
    [byteOf scene, 0, byteOf origin.code, 0] ++ bytes16 origin.detail ++ [byteOf reason.code]
  | .stepMark scene slot step value => [byteOf scene, byteOf slot] ++ bytes16 step ++ bytes32 value.toNat
  | .voiceStarved voice owner clip => [byteOf voice, byteOf (ownerCode owner), 0, 0] ++ bytes32 clip
  | .axisHomed axis owner position => [byteOf axis, byteOf owner.code] ++ bytes16 position
  | .fault code detail =>
    [byteOf code.bank.place, byteOf code.severity.code, byteOf code.code, 0] ++ detail.flatMap fun w => bytes32 w.toNat
  | .showState left entered => [byteOf left.code, byteOf entered.code]
  | .reloadDone sequence locked cueRing reportRing =>
    bytes32 sequence.toNat ++ [byteOf locked.toNat, byteOf (cueRing.toNat + 2 * reportRing.toNat)]
  | .restoreDone result count => [byteOf result.code, byteOf count]
  | .snapshotDone reason sequence => [byteOf reason.code, 0, 0, 0] ++ bytes32 sequence.toNat

/-- A report record of 32 bytes with the lost count it carries (12.4). -/
def QueuedRecord.bytes (r : QueuedRecord) (lost : Nat) : List Byte :=
  padTo 32 ([byteOf r.record.kindCode, byteOf lost, 0, 0] ++ bytes32 r.time.toNat ++ r.record.ownBytes)

/-- An index word: the index in the low two bytes, zero above (R47, R52). -/
def indexWord (i : Index) : List Byte := bytes32 i.toNat

/-! ## Cue slots -/

/-- The cue in a 32-byte slot (12.3). -/
def cueOfSlot (index : Index) (slot : List Byte) : CueEntry :=
  .cue index (slot.getD 0 0) (BitVec.ofNat 16 (word16At slot 2)) (slice slot 4 28)

/-! ## The Show Directory -/

def policyOf (l : List Byte) : PolicyRecord := ⟨byteAt l 0, byteAt l 1⟩

def zoneOf (l : List Byte) : ZoneRecord := ⟨byteAt l 0, byteAt l 1, word16At l 2, byteAt l 4, byteAt l 5⟩

def windowOf (l : List Byte) : WindowRecord := ⟨word32At l 0, word32At l 4, byteAt l 8⟩

def inputOf (l : List Byte) : InputRecord := ⟨byteAt l 0, byteAt l 1, byteAt l 2⟩

def axisOf (l : List Byte) : AxisRecord :=
  ⟨byteAt l 0, byteAt l 1, word16At l 2, word16At l 4, word16At l 6, word32At l 8, word16At l 12, word16At l 14⟩

def sceneOf (l : List Byte) : SceneRecord :=
  ⟨byteAt l 0, byteAt l 1, byteAt l 2, byteAt l 3, word32At l 4, word16At l 8, word16At l 10, word16At l 12, word16At l 14⟩

def channelOf (l : List Byte) : ChannelRecord := ⟨byteAt l 0, word16At l 2, word16At l 4⟩

/-- The directory a load image holds (12.2). -/
def directoryOf (image : List Byte) : Directory :=
  { signature := word32At image 0x000
    version := word16At image 0x004
    languages := byteAt image 0x006
    lockOnTake := byteAt image 0x007
    sequence := BitVec.ofNat 32 (word32At image 0x008)
    memoryCode := byteAt image 0x00C
    debounce := word16At image 0x00E
    cueBase := word32At image 0x040
    cueSlots := word16At image 0x044
    reportBase := word32At image 0x048
    reportSlots := word16At image 0x04C
    faultPage := word32At image 0x050
    snapshotArea := word32At image 0x054
    clipTable := word32At image 0x058
    clipGroups := word16At image 0x05C
    policies := tabulate fun i => policyOf (slice image (0x080 + 2 * i.val) 2)
    zones := tabulate fun i => zoneOf (slice image (0x0C0 + 8 * i.val) 8)
    windows := tabulate fun i => windowOf (slice image (0x100 + 16 * i.val) 16)
    inputs := tabulate fun i => inputOf (slice image (0x1C0 + 4 * i.val) 4)
    axes := tabulate fun i => axisOf (slice image (0x240 + 16 * i.val) 16)
    scenes := tabulate fun i => sceneOf (slice image (0x300 + 16 * i.val) 16)
    channels := tabulate fun i => channelOf (slice image (0x500 + 8 * i.val) 8) }

/-- Sum of the 32-bit words of a list of bytes. -/
def wordSum : List Byte → Nat
  | a :: b :: c :: d :: rest => a.toNat + 256 * b.toNat + 65536 * c.toNat + 16777216 * d.toNat + wordSum rest
  | _ => 0

/-! ## Fault Page -/

/-- A bank record of 32 bytes (12.7). -/
def BankRecord.bytes (r : BankRecord) : List Byte :=
  padTo 32
    ([byteOf r.valid.toNat, byteOf ((r.severity.map Severity.code).getD 0), byteOf ((r.code.map FaultCode.code).getD 0),
        byteOf (r.overflow.toNat + 2 * r.showStateLost.toNat)] ++ bytes32 r.time.toNat ++
      r.detail.flatMap fun w => bytes32 w.toNat)

/-- A line of the Fault Page, from the banks as they stand (12.7). -/
def faultPageLine (banks : Vector BankRecord 5) (sequence : Word) (line : Nat) : List Byte :=
  match line with
  | 0 => (banks.get 0).bytes ++ (banks.get 1).bytes
  | 1 => (banks.get 2).bytes ++ (banks.get 3).bytes
  | 2 => (banks.get 4).bytes ++ padTo 32 (bytes32 sequence.toNat)
  | _ => zeros 64

/-! ## Snapshot Area -/

/-- A slot entry of 16 bytes (12.8), given the scene byte. With no loop record its remaining count is 0 (log 41). -/
def Slot.entryBytes (t : Slot) (scene : Byte) : List Byte :=
  [byteOf t.state.code, scene] ++ bytes16 t.next ++ bytes32 t.clock ++
    (match t.loop with
     | none => [0xFF, 0xFF, 0, 0]
     | some l => bytes16 l.index ++ bytes16 l.remaining) ++ zeros 4

/-- The line of the marker: its valid form carries the tag and the sequence number; the invalid form is zero (12.8). -/
def markerLine (valid : Option Word) : List Byte :=
  match valid with
  | none => zeros 64
  | some sequence => padTo 64 (bytes32 Config.markerTag ++ bytes32 sequence.toNat)

/-- Is a marker line in its valid form for a sequence number (R186)? -/
def markerValid (line : List Byte) (sequence : Word) : Bool :=
  word32At line 0 == Config.markerTag && word32At line 4 == sequence.toNat

/-- A slot entry read back for a restore (12.8). -/
structure SavedSlot where
  state : Nat
  scene : Nat
  next : Nat
  clock : Nat
  loop : Option LoopRecord
  deriving DecidableEq, Repr

/-- Slot entry `k` of the lines read (line 0 at offset 0). The loop record's remaining count is taken as read (R115; log 54
for 65,535, log 38 for 0). -/
def savedSlot (lines : List Byte) (k : Fin 8) : SavedSlot :=
  let l := slice lines (0x040 + 16 * k.val) 16
  { state := byteAt l 0, scene := byteAt l 1, next := word16At l 2, clock := word32At l 4,
    loop := if word16At l 8 = 0xFFFF then none else some ⟨word16At l 8, word16At l 10⟩ }

/-- The saved level of a channel, as read (R128; log 46 for one above 1000). -/
def savedLevel (lines : List Byte) (c : Fin 128) : Nat := word16At lines (0x0C0 + 2 * c.val)

def savedLanguage (lines : List Byte) (z : Fin 8) : Nat := byteAt lines (0x2F0 + z.val)

/-! ## Lamp link frames -/

/-- The frame of a link: marker, link number, 32 values, sum check (R190). -/
def frameBytes (link : Nat) (values : List Nat) : List Byte :=
  [0xA5, byteOf link] ++ values.flatMap bytes16 ++ bytes16 (link + values.sum)

/-- A byte on a link, true for high: a start bit low, eight data bits, the least significant first, two stop bits high
(R190). -/
def serialByte (b : Byte) : List Bool := [false] ++ (fins 8).map (fun i => b.getLsbD i.val) ++ [true, true]

/-- The bits of a frame, which follow one another without gaps (R190). -/
def serialFrame (frame : List Byte) : List Bool := frame.flatMap serialByte

end Sys2Proof.Machine
end

