-- ==== Sys2Proof/Machine/Directory.lean ====
section
/-! DEFINITION. What a taken directory says of each record, the stand-in values before the first take (R24), and the
validation of a load image (R27 to R30). -/

namespace Sys2Proof.Machine

/-! ## Records -/

def ZoneRecord.isEnabled (r : ZoneRecord) : Bool := r.enabled == 1

def SceneRecord.isEnabled (r : SceneRecord) : Bool := hasMember r.flags 0

def SceneRecord.autoStart (r : SceneRecord) : Bool := hasMember r.flags 1

def SceneRecord.sceneClass (r : SceneRecord) : SceneClass := SceneClass.ofCode r.cls

def SceneRecord.zones (r : SceneRecord) : List (Fin 8) := zonesOf r.zoneSet

/-- Is a zone in the scene's zone set? -/
def SceneRecord.hasZone (r : SceneRecord) (z : Nat) : Bool := z < 8 && hasMember r.zoneSet z

/-- Do two scenes share a zone? -/
def SceneRecord.sharesZone (r t : SceneRecord) : Bool := r.zones.any fun z => hasMember t.zoneSet z.val

def AxisRecord.isEnabled (r : AxisRecord) : Bool := hasMember r.flags 0

/-- Input kinds (12.10): UNUSED 0, BUTTON 1, MAT 2, LANGUAGE 3. -/
def InputRecord.pressesScene (r : InputRecord) : Bool := r.kind == 1 || r.kind == 2

def InputRecord.isLanguage (r : InputRecord) : Bool := r.kind == 3

/-! ## Stand-in values (R24) -/

def ZoneRecord.absent : ZoneRecord := ⟨0, 0xFF, 0, 0, 0xFF⟩

def SceneRecord.absent : SceneRecord := ⟨0, 0, 0, 0, 0, 0, 0, 0, 0⟩

def AxisRecord.absent : AxisRecord := ⟨0, 0, 0, 0, 0, 0, 0, 0⟩

def InputRecord.absent : InputRecord := ⟨0, 0xFF, 0⟩

/-- Every bank with log enable set and report threshold NONE. -/
def PolicyRecord.standIn : PolicyRecord := ⟨1, 4⟩

namespace State

def zoneRecord (s : State) (z : Fin 8) : ZoneRecord :=
  match s.dir.taken with
  | none => .absent
  | some d => d.zones.get z

def sceneRecord (s : State) (n : Fin 32) : SceneRecord :=
  match s.dir.taken with
  | none => .absent
  | some d => d.scenes.get n

def axisRecord (s : State) (n : Fin 12) : AxisRecord :=
  match s.dir.taken with
  | none => .absent
  | some d => d.axes.get n

def inputRecord (s : State) (i : Fin 24) : InputRecord :=
  match s.dir.taken with
  | none => .absent
  | some d => d.inputs.get i

/-- The fault policy in force (R179). -/
def policy (s : State) (b : Bank) : PolicyRecord :=
  match s.dir.taken with
  | none => .standIn
  | some d => d.policies.get b.place

end State

/-- Memory size of a memory size code: 16 MiB doubled once for each (12.2). -/
def memorySizeOf (code : Nat) : Nat := 0x1000000 * 2 ^ code

/-- The memory size in force (R7, R24). -/
def State.memorySize (s : State) : Nat :=
  match s.dir.taken with
  | none => Config.standInMemory
  | some d => memorySizeOf d.memoryCode

/-! ## Areas -/

def ringExtent (base slots : Nat) : Extent := ⟨base, base + 64 + 32 * slots⟩

/-- The address of the slot an index falls in. -/
def ringSlot (base slots : Nat) (i : Index) : Nat := base + 64 + 32 * (i.toNat % slots)

/-- A clip group's record (R130). -/
def Directory.groupAddress (d : Directory) (g : Nat) : Nat := d.clipTable + 64 * g

/-- The five areas a directory places; a Clip Table of no groups has no extent (R29). -/
def Directory.areas (d : Directory) : List Extent :=
  [ringExtent d.cueBase d.cueSlots, ringExtent d.reportBase d.reportSlots, ⟨d.faultPage, d.faultPage + 256⟩,
    ⟨d.snapshotArea, d.snapshotArea + 1024⟩] ++
    (if d.clipGroups = 0 then [] else [⟨d.clipTable, d.clipTable + 64 * d.clipGroups⟩])

/-- The part-written areas, in the order step 3 lists them (R9). -/
def Directory.writtenAreas (d : Directory) : List Extent :=
  [⟨d.reportBase + 64, d.reportBase + 64 + 32 * d.reportSlots⟩, ⟨d.reportBase, d.reportBase + 4⟩,
    ⟨d.cueBase + 4, d.cueBase + 8⟩, ⟨d.faultPage, d.faultPage + 256⟩, ⟨d.snapshotArea, d.snapshotArea + 1024⟩]

/-- Does an extent share a byte with `length` bytes from an address? -/
def Extent.touches (e : Extent) (addr length : Nat) : Bool := addr < e.limit && e.base < addr + length

def Extent.overlaps (e f : Extent) : Bool := e.touches f.base (f.limit - f.base)

/-- Does an area lie at or above 0x1000 and end at or below the memory size (R29)? -/
def Extent.within (e : Extent) (memory : Nat) : Bool := 0x1000 ≤ e.base && e.limit ≤ memory

/-- Is every extent of a list apart from those after it? -/
def pairwiseApart : List Extent → Bool
  | [] => true
  | e :: es => es.all (fun f => !e.overlaps f) && pairwiseApart es

/-! ## Validation -/

/-- One check: its item (the place in the validation tables, 12.4), the index of the record, and whether it holds. -/
structure Check where
  item : Nat
  index : Nat
  holds : Bool
  deriving DecidableEq, Repr

/-- The header checks (R28). -/
def headerChecks (image : List Byte) (d : Directory) : List Check :=
  [⟨0, 0, d.signature == 0x44535649⟩,
    ⟨1, 0, d.version == 1⟩,
    ⟨2, 0, wordSum (image.take 0xFFC) % 4294967296 == 0⟩,
    ⟨3, 0, d.memoryCode ≤ 4 && 1 ≤ d.languages && d.languages ≤ 4 && d.lockOnTake ≤ 1⟩]

def ringHolds (base slots memory : Nat) (counts : List Nat) : Bool :=
  counts.contains slots && base % 64 == 0 && (ringExtent base slots).within memory

/-- The geometry checks (R29). -/
def geometryChecks (d : Directory) : List Check :=
  let memory := memorySizeOf d.memoryCode
  [⟨4, 0, ringHolds d.cueBase d.cueSlots memory [16, 32, 64, 128, 256]⟩,
    ⟨5, 0, ringHolds d.reportBase d.reportSlots memory [32, 64, 128, 256, 512]⟩,
    ⟨6, 0, d.faultPage % 256 == 0 && (Extent.mk d.faultPage (d.faultPage + 256)).within memory⟩,
    ⟨7, 0, d.snapshotArea % 1024 == 0 && (Extent.mk d.snapshotArea (d.snapshotArea + 1024)).within memory⟩,
    ⟨8, 0,
      d.clipGroups == 0 ||
        (d.clipGroups ≤ 512 && d.clipTable % 64 == 0 &&
          (Extent.mk d.clipTable (d.clipTable + 64 * d.clipGroups)).within memory)⟩,
    ⟨9, 0, pairwiseApart d.areas⟩]

/-- Is a number an enabled zone of the directory? -/
def Directory.enabledZone (d : Directory) (z : Nat) : Bool :=
  match numbered 8 z with
  | none => false
  | some z => (d.zones.get z).isEnabled

/-- A language input is none, or an input of kind LANGUAGE with this zone. -/
def Directory.languageInputHolds (d : Directory) (z : Fin 8) : Bool :=
  let i := (d.zones.get z).languageInput
  match numbered 24 i with
  | none => i == 0xFF
  | some i => (d.inputs.get i).isLanguage && (d.inputs.get i).zone == z.val

def Directory.zoneHolds (d : Directory) (z : Fin 8) : Bool :=
  let r := d.zones.get z
  r.enabled == 0 ||
    (r.isEnabled && (r.guardInput < 8 || r.guardInput == 0xFF) &&
      (fins 8).all (fun y =>
        !(y.val < z.val && (d.zones.get y).isEnabled && r.guardInput < 8 && (d.zones.get y).guardInput == r.guardInput)) &&
      500 ≤ r.settleTime && r.settleTime ≤ 10000 && r.defaultLanguage < d.languages && d.languageInputHolds z)

def Directory.channelHolds (d : Directory) (c : Fin 128) : Bool :=
  let r := d.channels.get c
  (r.zone == 0xFF || d.enabledZone r.zone) && r.base ≤ 1000 && r.work ≤ 1000

def Directory.windowHolds (d : Directory) (w : Fin 12) : Bool :=
  let r := d.windows.get w
  r.kind == 0 ||
    (r.kind ≤ 3 && r.base % 4096 == 0 && r.limit % 4096 == 0 && r.base < r.limit && r.limit ≤ memorySizeOf d.memoryCode)

def SceneRecord.scriptExtent (r : SceneRecord) : Extent := ⟨r.script, r.script + 16 * r.steps⟩

/-- SCENE n (R30); bits 2 to 7 of the set of flags, which name no member, are not judged (log 34). -/
def Directory.sceneHolds (d : Directory) (n : Fin 32) : Bool :=
  let r := d.scenes.get n
  !r.isEnabled ||
    (r.script % 16 == 0 && 1 ≤ r.steps && r.steps ≤ 1024 && r.scriptExtent.within (memorySizeOf d.memoryCode) &&
      !r.zones.isEmpty && r.zones.all (fun z => d.enabledZone z.val) && r.cls ≤ 2 && r.policy ≤ 2 && r.waitLimit ≤ 600 &&
      r.cooldown ≤ 600 && r.releaseFade ≤ 10000 && (!r.autoStart || r.cls == 0))

def Directory.inputHolds (d : Directory) (i : Fin 24) : Bool :=
  let r := d.inputs.get i
  r.kind ≤ 3 && (!r.pressesScene || r.scene < 32 || r.scene == 0xFF) &&
    (!r.isLanguage ||
      (match numbered 8 r.zone with
       | none => false
       | some z => (d.zones.get z).isEnabled && (d.zones.get z).languageInput == i.val))

/-- AXIS n (R30); bits 2 to 7 of the set of flags, which name no member, are not judged (log 34). -/
def Directory.axisHolds (d : Directory) (n : Fin 12) : Bool :=
  let r := d.axes.get n
  !r.isEnabled ||
    (d.enabledZone r.zone && r.travelMin ≤ r.travelMax && 1 ≤ r.maxSpeed && r.maxSpeed ≤ 20000 && 100 ≤ r.acceleration &&
      r.acceleration ≤ 200000 && 100 ≤ r.moveTimeLimit && r.moveTimeLimit ≤ 60000 && 1 ≤ r.suspendLimit &&
      r.suspendLimit ≤ 600)

def PolicyRecord.holds (r : PolicyRecord) : Bool := r.logEnable ≤ 1 && 1 ≤ r.threshold && r.threshold ≤ 4

/-- The record checks, group by group (R30). -/
def recordChecks (d : Directory) : List Check :=
  (fins 8).map (fun z => ⟨10, z.val, d.zoneHolds z⟩) ++ (fins 128).map (fun c => ⟨11, c.val, d.channelHolds c⟩) ++
    (fins 12).map (fun w => ⟨12, w.val, d.windowHolds w⟩) ++ (fins 32).map (fun n => ⟨13, n.val, d.sceneHolds n⟩) ++
    (fins 24).map (fun i => ⟨14, i.val, d.inputHolds i⟩) ++ [⟨15, 0, 10 ≤ d.debounce && d.debounce ≤ 250⟩] ++
    (fins 12).map (fun n => ⟨16, n.val, d.axisHolds n⟩) ++ (fins 5).map (fun b => ⟨17, b.val, (d.policies.get b).holds⟩)

/-- The first check that fails, if one does (R27). -/
def firstFailure (image : List Byte) : Option Check :=
  let d := directoryOf image
  (headerChecks image d ++ geometryChecks d ++ recordChecks d).find? fun c => !c.holds

/-- A directory item in one word (12.4). -/
def Check.word (c : Check) : Nat := c.item + 65536 * c.index

end Sys2Proof.Machine
end

