-- ==== Sys2Proof/Machine/Flags.lean ====
section
/-! DEFINITION. The part's flags: how a fault bank's record and its overflow and show-state-lost flags answer an arriving
fault (R180), and when the attention output is asserted (R55). -/

namespace Sys2Proof.Machine

/-- What becomes of an arriving fault: the bank's record after it, and whether it was logged (R180). -/
structure BankDecision where
  record : BankRecord
  logged : Bool
  deriving DecidableEq, Repr

/-- Is a record of equal or higher severity than an arrival already valid? -/
def BankRecord.outranks (r : BankRecord) (arriving : Severity) : Bool :=
  match r.severity with
  | none => false
  | some held => arriving.code ≤ held.code

/-- Does a record hold a valid SEVERE fault? -/
def BankRecord.isSevere (r : BankRecord) : Bool := r.valid && r.severity == some .severe

/-- The table of R180. -/
def BankRecord.decide (r : BankRecord) (policy : PolicyRecord) (code : FaultCode) (detail : List Word) (now : Time) :
    BankDecision :=
  if code.severity ≠ .severe ∧ policy.logEnable ≠ 1 then ⟨r, false⟩
  else if !r.valid then ⟨⟨true, some code.severity, some code, detail, now, false, false⟩, true⟩
  else if r.outranks code.severity then
    if code.severity = .severe then ⟨{ r with overflow := true, showStateLost := true }, false⟩
    else ⟨{ r with overflow := true }, false⟩
  else
    ⟨{ r with severity := some code.severity, code := some code, detail := detail, time := now, overflow := true }, true⟩

/-- Does a logged fault produce a FAULT record: is its severity at or above the report threshold, NONE being above
every severity (R180)? -/
def PolicyRecord.reports (policy : PolicyRecord) (severity : Severity) : Bool := policy.threshold ≤ severity.code

/-- Does any bank hold a valid SEVERE record? -/
def FaultUnit.alarmed (f : FaultUnit) : Bool := (fins 5).any fun b => (f.banks.get b).isSevere

/-- The condition of the attention output (R55). -/
def State.wantsAttention (s : State) : Bool :=
  s.report.producer != s.report.consumer || s.fault.alarmed || s.ctl.state == .safe

end Sys2Proof.Machine
end

