-- ==== Sys2Proof/Machine/Exact.lean ====
section
/-! DEFINITION. Exact arithmetic for the motion profile (R149): fractions stay fractions; a square root that is no
fraction is kept as a root, and its sign and whole part are read off an enclosure narrow enough to decide (log 9). -/

namespace Sys2Proof.Machine.Exact

/-- A fraction in lowest terms. -/
def reduced (num : Int) (den : Nat) : Exact :=
  let g := Nat.gcd num.natAbs den
  if g ≤ 1 then .frac num den else .frac (num / (g : Int)) (den / g)

def whole (n : Int) : Exact := .frac n 1

def plus (x y : Exact) : Exact :=
  match x, y with
  | .frac a b, .frac c d => reduced (a * d + c * b) (b * d)
  | x, y => if x = whole 0 then y else if y = whole 0 then x else .add x y

def times (x y : Exact) : Exact :=
  match x, y with
  | .frac a b, .frac c d => reduced (a * c) (b * d)
  | x, y => if x = whole 0 ∨ y = whole 0 then whole 0 else if x = whole 1 then y else if y = whole 1 then x else .mul x y

def minus (x y : Exact) : Exact := plus x (times (whole (-1)) y)

/-- `x` times a fraction. -/
def scale (x : Exact) (num : Int) (den : Nat) : Exact := times x (reduced num den)

def square (x : Exact) : Exact := times x x

/-- Largest `r`, built from bit `k - 1` down, with `r * r ≤ n`. -/
def floorRootFrom : Nat → Nat → Nat → Nat
  | 0, _, r => r
  | k + 1, n, r =>
    let c := r + 2 ^ k
    if c * c ≤ n then floorRootFrom k n c else floorRootFrom k n r

def floorRoot (n : Nat) : Nat := floorRootFrom (n.log2 / 2 + 1) n 0

def squareRoot (x : Exact) : Exact :=
  match x with
  | .frac a b =>
    let r := floorRoot a.toNat
    let q := floorRoot b
    if a ≤ 0 then whole 0 else if r * r = a.toNat ∧ q * q = b then reduced r q else .root x
  | x => .root x

/-- An enclosure of `x * 2 ^ p`. -/
def enclosure (p : Nat) : Exact → Int × Int
  | .frac a b => ((a * 2 ^ p) / (b : Int), -((-(a * 2 ^ p)) / (b : Int)))
  | .add x y =>
    let u := enclosure p x
    let v := enclosure p y
    (u.1 + v.1, u.2 + v.2)
  | .mul x y =>
    let u := enclosure p x
    let v := enclosure p y
    let a := u.1 * v.1
    let b := u.1 * v.2
    let c := u.2 * v.1
    let d := u.2 * v.2
    ((min (min a b) (min c d)) / (2 ^ p : Int), -((-(max (max a b) (max c d))) / (2 ^ p : Int)))
  | .root x =>
    let u := enclosure p x
    ((floorRoot (u.1.toNat * 2 ^ p) : Int), (floorRoot (u.2.toNat * 2 ^ p) + 1 : Int))

/-- The precisions tried in turn. -/
def precisions : List Nat := [64, 256, 1024, 4096]

def signIn (x : Exact) : List Nat → Int
  | [] => 0
  | p :: ps =>
    let u := enclosure p x
    if 0 < u.1 then 1 else if u.2 < 0 then -1 else signIn x ps

/-- -1, 0 or 1; a number no enclosure tells from 0 is 0. -/
def sign (x : Exact) : Int :=
  match x with
  | .frac a _ => a.sign
  | x => signIn x precisions

/-- Is `x` at or below `y`? -/
def atMost (x y : Exact) : Bool := 0 ≤ sign (minus y x)

def floorIn (x : Exact) : List Nat → Int
  | [] => (enclosure 4096 x).2 / (2 ^ 4096 : Int)
  | p :: ps =>
    let u := enclosure p x
    let lo := u.1 / (2 ^ p : Int)
    let hi := u.2 / (2 ^ p : Int)
    if lo = hi then lo else floorIn x ps

/-- The whole part, rounded down. -/
def floor (x : Exact) : Int :=
  match x with
  | .frac a b => a / (b : Int)
  | x => floorIn x precisions

/-- The whole part, any fraction dropped toward 0. -/
def trunc (x : Exact) : Int := if sign x < 0 then -(floor (minus (whole 0) x)) else floor x

def smaller (x y : Exact) : Exact := if atMost x y then x else y

end Sys2Proof.Machine.Exact
end

