-- ==== Sys2Proof/Machine/Profile.lean ====
section
/-! DEFINITION. The motion profile (R149), exact in show time. Times are ms of profile time, places steps, speeds steps
per second. `rec` is the axis's directory record. -/

namespace Sys2Proof.Machine

def Direction.sign : Direction → Int
  | .lower => -1
  | .higher => 1

def Direction.opposite : Direction → Direction
  | .lower => .higher
  | .higher => .lower

/-- Steps needed to slow from a speed to 0: v² ÷ (2 × acceleration) (R149). -/
def stoppingDistance (rec : AxisRecord) (v : Exact) : Exact := (v.square).scale 1 (2 * rec.acceleration)

/-- Ms needed to slow from a speed to 0. -/
def stoppingTime (rec : AxisRecord) (v : Exact) : Exact := v.scale 1000 rec.acceleration

/-- A place some steps along a direction. -/
def alongside (dir : Direction) (place distance : Exact) : Exact :=
  place.plus (distance.times (.whole dir.sign))

/-- Steps left to a target, along the direction of travel. -/
def distanceLeft (dir : Direction) (place : Exact) (target : Nat) : Exact :=
  ((Exact.whole target).minus place).times (.whole dir.sign)

/-- Speed at the top of a ramp that must slow at once to stop at the target. -/
def peakSpeed (rec : AxisRecord) (r : Run) (dir : Direction) (target : Nat) : Exact :=
  (((r.speed.square).plus ((distanceLeft dir r.place target).scale (2 * rec.acceleration) 1)).scale 1 2).squareRoot

/-- Does the ramp reach the maximum speed before it must slow? -/
def reachesMaximum (rec : AxisRecord) (r : Run) (dir : Direction) (target : Nat) : Bool :=
  (Exact.whole rec.maxSpeed).atMost (peakSpeed rec r dir target)

/-- How long a part of the profile lasts, ms. -/
def Run.duration (rec : AxisRecord) (r : Run) (dir : Direction) (target : Nat) : Exact :=
  match r.kind with
  | .speedingUp =>
    let top := if reachesMaximum rec r dir target then Exact.whole rec.maxSpeed else peakSpeed rec r dir target
    (top.minus r.speed).scale 1000 rec.acceleration
  | .constant =>
    ((distanceLeft dir r.place target).minus (stoppingDistance rec r.speed)).scale 1000 rec.maxSpeed
  | .slowing | .turning | .stopping => stoppingTime rec r.speed
  | .resting => .whole 0

/-- The exact instant a part of the profile ends. -/
def Run.ending (rec : AxisRecord) (r : Run) (dir : Direction) (target : Nat) : Exact :=
  r.since.plus (r.duration rec dir target)

/-- The speed some ms into a part. -/
def Run.speedAfter (rec : AxisRecord) (r : Run) (dt : Exact) : Exact :=
  match r.kind with
  | .speedingUp => r.speed.plus (dt.scale rec.acceleration 1000)
  | .constant => r.speed
  | .slowing | .turning | .stopping =>
    let v := r.speed.minus (dt.scale rec.acceleration 1000)
    if v.sign ≤ 0 then .whole 0 else v
  | .resting => .whole 0

/-- The place some ms into a part; travel is the integral of speed (R149). -/
def Run.placeAfter (rec : AxisRecord) (r : Run) (dir : Direction) (dt : Exact) : Exact :=
  let linear := (r.speed.times dt).scale 1 1000
  let ramp := (dt.square).scale rec.acceleration 2000000
  match r.kind with
  | .speedingUp => alongside dir r.place (linear.plus ramp)
  | .constant => alongside dir r.place linear
  | .slowing | .turning | .stopping =>
    if (stoppingTime rec r.speed).atMost dt then r.rest else alongside dir r.place (linear.minus ramp)
  | .resting => r.place

/-- Profile time into a part at an instant, no later than the part's end. -/
def Run.into (rec : AxisRecord) (r : Run) (dir : Direction) (target now : Nat) : Exact :=
  ((Exact.whole now).minus r.since).smaller (r.duration rec dir target)

/-- Has a part ended by an instant? -/
def Run.over (rec : AxisRecord) (r : Run) (dir : Direction) (target now : Nat) : Bool :=
  (r.ending rec dir target).atMost (.whole now)

/-- A part that slows to the target. -/
def Run.slowTo (since place speed : Exact) (target : Nat) : Run := ⟨.slowing, since, place, speed, .whole target⟩

/-- A part that slows for `kind` and rests where the acceleration leaves it. -/
def Run.slowFrom (rec : AxisRecord) (kind : RunKind) (dir : Direction) (since place speed : Exact) : Run :=
  ⟨kind, since, place, speed, alongside dir place (stoppingDistance rec speed)⟩

/-- The part that follows at the end of one on the way to a target, with its direction (R149). -/
def Run.following (rec : AxisRecord) (r : Run) (dir : Direction) (target : Nat) : Run × Direction :=
  let dt := r.duration rec dir target
  let at' := r.since.plus dt
  match r.kind with
  | .speedingUp =>
    if reachesMaximum rec r dir target then
      (⟨.constant, at', r.placeAfter rec dir dt, .whole rec.maxSpeed, .whole 0⟩, dir)
    else (.slowTo at' (r.placeAfter rec dir dt) (peakSpeed rec r dir target) target, dir)
  | .constant => (.slowTo at' (r.placeAfter rec dir dt) r.speed target, dir)
  | .turning => (⟨.speedingUp, at', r.rest, .whole 0, .whole 0⟩, dir.opposite)
  | .slowing | .stopping | .resting => (r, dir)

/-- Does another part of the way to the target follow a part of this kind? -/
def RunKind.goesOn : RunKind → Bool
  | .speedingUp | .constant | .turning => true
  | .slowing | .stopping | .resting => false

/-- The part the profile is on at an instant, from the part it was on: at most `fuel` parts on. -/
def Run.caughtUp (rec : AxisRecord) (target now : Nat) : Nat → Run × Direction → Run × Direction
  | 0, p => p
  | fuel + 1, p =>
    if p.1.kind.goesOn && p.1.over rec p.2 target now then
      Run.caughtUp rec target now fuel (p.1.following rec p.2 target)
    else p

/-- The ramp an axis takes up toward a target from a place and a speed (R149): it turns first where the target lies
behind it, or where it is too fast to stop there. -/
def Run.toward (rec : AxisRecord) (target : Nat) (now place speed : Exact) (dir : Direction) : Run × Direction :=
  if speed.sign ≤ 0 then
    let d := ((Exact.whole target).minus place).sign
    if d = 0 then (.slowTo now place (.whole 0) target, dir)
    else (⟨.speedingUp, now, place, .whole 0, .whole 0⟩, if d < 0 then .lower else .higher)
  else
    let spare := ((distanceLeft dir place target).minus (stoppingDistance rec speed)).sign
    if spare < 0 then (.slowFrom rec .turning dir now place speed, dir)
    else if spare = 0 then (.slowTo now place speed target, dir)
    else if (Exact.whole rec.maxSpeed).atMost speed then (⟨.constant, now, place, .whole rec.maxSpeed, .whole 0⟩, dir)
    else (⟨.speedingUp, now, place, speed, .whole 0⟩, dir)

/-- Homing speed: an eighth of the maximum, rounded down, at least 1 step/s (R149). -/
def homingSpeed (rec : AxisRecord) : Nat := max 1 (rec.maxSpeed / 8)

/-- Home position (R153): the flag set's member 1 is home direction toward higher positions (12.2). -/
def homeDirection (rec : AxisRecord) : Direction := if rec.flags.testBit 1 then .higher else .lower

def homePosition (rec : AxisRecord) : Nat :=
  match homeDirection rec with
  | .lower => 0
  | .higher => 65535

/-- A position counted modulo 65,536 (R148). -/
def wrapPosition (p : Int) : Nat := (p % 65536).toNat

/-- The target a part is told by; HALTING keeps one, and a part that stops does not read it. -/
def Axis.aim (a : Axis) : Nat := a.target.getD 0

/-- Where the step output has the axis at the present instant, on the part of the profile it is on (R149): the whole
steps travelled from the motion's start, any fraction dropped (log 10). -/
def Axis.dueAt (rec : AxisRecord) (a : Axis) : Nat :=
  match a.state with
  | .homing =>
    wrapPosition ((a.origin : Int) + a.direction.sign * ((homingSpeed rec * a.elapsed / 1000 : Nat) : Int))
  | _ =>
    match a.run with
    | none => a.position
    | some r =>
      let place := r.placeAfter rec a.direction (r.into rec a.direction a.aim a.profileMs)
      wrapPosition ((a.origin : Int) + ((place.minus (.whole a.origin)).trunc))

/-- The axis with the parts of its profile and its step pulses brought to the present instant (log 11). -/
def Axis.synced (rec : AxisRecord) (a : Axis) : Axis :=
  match a.run with
  | none => { a with position := a.dueAt rec }
  | some r =>
    let p := Run.caughtUp rec a.aim a.profileMs 8 (r, a.direction)
    let a' := { a with run := some p.1, direction := p.2 }
    { a' with position := a'.dueAt rec }

/-- The present step rate (R147); a HOMING axis runs at its homing speed. -/
def Axis.speed (rec : AxisRecord) (a : Axis) : Exact :=
  match a.state with
  | .homing => .whole (homingSpeed rec)
  | _ =>
    match a.run with
    | none => .whole 0
    | some r => r.speedAfter rec (r.into rec a.direction a.aim a.profileMs)

/-- The exact place, in steps. -/
def Axis.place (rec : AxisRecord) (a : Axis) : Exact :=
  match a.run with
  | none => .whole a.position
  | some r => r.placeAfter rec a.direction (r.into rec a.direction a.aim a.profileMs)

/-- A synced axis taking up the ramp to a target from its present place and speed, which are those of the way to the
target it had before (R149, R150). -/
def Axis.retargeted (rec : AxisRecord) (a : Axis) (target : Nat) : Axis :=
  let p := Run.toward rec target (.whole a.profileMs) (a.place rec) (a.speed rec) a.direction
  { a with target := some target, run := some p.1, direction := p.2 }

/-- A synced axis taking up the ramp to its target. -/
def Axis.ramped (rec : AxisRecord) (a : Axis) : Axis := a.retargeted rec a.aim

/-- A synced axis slowing to rest in its direction of travel from this instant (R149). An axis already slowing to its
target or already stopping keeps its course. -/
def Axis.slowed (rec : AxisRecord) (a : Axis) : Axis :=
  match a.run with
  | none => a
  | some r =>
    match r.kind with
    | .slowing | .turning | .stopping => { a with run := some { r with kind := .stopping } }
    | .speedingUp | .constant =>
      { a with run := some (.slowFrom rec .stopping a.direction (.whole a.profileMs) (a.place rec) (a.speed rec)) }
    | .resting => a

/-- Is the axis at speed 0 at the present instant? -/
def Axis.atRest (rec : AxisRecord) (a : Axis) : Bool := (a.speed rec).sign ≤ 0

end Sys2Proof.Machine
end

