-- ==== Sys2Proof/Machine/Ops.lean ====
section
/-! DEFINITION. The operations the blocks share: places of the tables, producing a report record (R50), logging a fault
(R180, R181), placing and removing a pin (R166, R167), and withdrawing or discarding requests (R20, R96, R143). -/

namespace Sys2Proof.Machine

/-- What a handler answers: the state after it, and the tasks it asks for, in order. -/
abbrev Effect := State × List Task

/-- Is a slot in this state a running instance of its scene (R78)? -/
def SlotState.isRunning : SlotState → Bool
  | .loading | .running | .held => true
  | .free | .stopping => false

/-- The Report Unit with a record at the queue's tail, or one more lost when 16 wait (R50). -/
def ReportUnit.joined (r : ReportUnit) (x : QueuedRecord) : ReportUnit :=
  if r.queue.length < Config.reportQueueSize then { r with queue := r.queue ++ [x] }
  else { r with lost := min 255 (r.lost + 1) }

/-- The Report Unit with more records lost, saturating at 255 (R49). -/
def ReportUnit.losing (r : ReportUnit) (n : Nat) : ReportUnit := { r with lost := min 255 (r.lost + n) }

namespace State

/-! ## Places of the tables -/

def slot (s : State) (k : Fin 8) : Slot := s.slots.get k

def setSlot (s : State) (k : Fin 8) (x : Slot) : State := { s with slots := put s.slots k x }

def zone (s : State) (z : Fin 8) : Zone := s.zones.get z

def setZone (s : State) (z : Fin 8) (x : Zone) : State := { s with zones := put s.zones z x }

def input (s : State) (i : Fin 24) : VisitorInput := s.inputs.get i

def setInput (s : State) (i : Fin 24) (x : VisitorInput) : State := { s with inputs := put s.inputs i x }

def voice (s : State) (v : Fin 8) : Voice := s.voices.get v

def setVoice (s : State) (v : Fin 8) (x : Voice) : State := { s with voices := put s.voices v x }

def axis (s : State) (n : Fin 12) : Axis := s.axes.get n

def setAxis (s : State) (n : Fin 12) (x : Axis) : State := { s with axes := put s.axes n x }

def channel (s : State) (c : Fin 128) : Channel := s.lamp.channels.get c

def setChannel (s : State) (c : Fin 128) (x : Channel) : State :=
  { s with lamp := { s.lamp with channels := put s.lamp.channels c x } }

def mapChannels (s : State) (f : Channel → Channel) : State :=
  { s with lamp := { s.lamp with channels := tabulate fun c => f (s.lamp.channels.get c) } }

/-! ## What the directory and the tables say together -/

/-- The zone of an axis. -/
def axisZone (s : State) (n : Fin 12) : Option (Fin 8) := numbered 8 (s.axisRecord n).zone

/-- A zone's axes: the enabled axes whose record names the zone (R56). -/
def zoneAxes (s : State) (z : Fin 8) : List (Fin 12) :=
  (fins 12).filter fun n => (s.axisRecord n).isEnabled && (s.axisRecord n).zone == z.val

/-- The axes that take and lose HOLD (R155, R156), in rising number (log 35). -/
def enabledAxes (s : State) : List (Fin 12) := (fins 12).filter fun n => (s.axisRecord n).isEnabled

def ownedVoices (s : State) (k : Fin 8) : List (Fin 8) := (fins 8).filter fun v => (s.voice v).owner == some k

def ownedAxes (s : State) (k : Fin 8) : List (Fin 12) := (fins 12).filter fun n => (s.axis n).owner == .slot k

def ownsChannel (s : State) (k : Fin 8) : Bool := (fins 128).any fun c => (s.channel c).owner == some k

/-- Has a slot wound down: does it own no channel, no voice and no axis (R109)? -/
def woundDown (s : State) (k : Fin 8) : Bool :=
  !s.ownsChannel k && (s.ownedVoices k).isEmpty && (s.ownedAxes k).isEmpty

/-- The scene record of the scene a slot holds; a FREE slot has none. -/
def slotScene (s : State) (k : Fin 8) : SceneRecord :=
  match (s.slot k).holding with
  | none => .absent
  | some h => s.sceneRecord h.scene

/-- The slots that hold a scene and satisfy a condition, in rising number. -/
def slotsWith (s : State) (scene : Fin 32) (p : SlotState → Bool) : List (Fin 8) :=
  (fins 8).filter fun k =>
    p (s.slot k).state &&
      (match (s.slot k).holding with
       | none => false
       | some h => h.scene == scene)

/-! ## Records -/

/-- A record joins the tail of the Report Queue, or is lost when 16 wait there (R50). -/
def produce (s : State) (r : Record) : State := { s with report := s.report.joined ⟨r, s.showTime⟩ }

/-- Records lost (R48, R54). -/
def lose (s : State) (n : Nat) : State := { s with report := s.report.losing n }

/-! ## Faults -/

def bank (s : State) (b : Bank) : BankRecord := s.fault.banks.get b.place

def setBank (s : State) (b : Bank) (r : BankRecord) : State :=
  { s with fault := { s.fault with banks := put s.fault.banks b.place r } }

def markDirty (s : State) : State := { s with fault := { s.fault with dirty := true } }

/-- What becomes of a fault arriving now (R180). -/
def decideFault (s : State) (code : FaultCode) (detail : List Nat) : BankDecision :=
  (s.bank code.bank).decide (s.policy code.bank) code (detailWords detail) s.showTime

/-- The FAULT record of a logged fault, if its severity is at or above the report threshold (R180). -/
def reportFault (s : State) (code : FaultCode) (detail : List Nat) : ReportUnit :=
  if (s.decideFault code detail).logged && (s.policy code.bank).reports code.severity then
    s.report.joined ⟨.fault code (detailWords detail), s.showTime⟩
  else s.report

/-- A fault arrives: its bank's record and its FAULT record (R180). `marks` tells that a change of the record marks the
Fault Page dirty, as every change does but that of FAULT PAGE WRITE FAILED (R183). -/
def logMarking (s : State) (marks : Bool) (code : FaultCode) (detail : List Nat) : State :=
  let record := (s.decideFault code detail).record
  { s with
    fault := { s.fault with banks := put s.fault.banks code.bank.place record
                            dirty := s.fault.dirty || (marks && record != s.bank code.bank) }
    report := s.reportFault code detail }

/-- A fault arrives (R180). -/
def log (s : State) (code : FaultCode) (detail : List Nat) : State := s.logMarking true code detail

/-- The SAFE trigger a SEVERE fault gives when it finds any bank with a valid SEVERE record (R181). -/
def trigger (s : State) : List Task := if s.fault.alarmed then [.safeTrigger] else []

/-! ## Pins -/

def slotPlace (k : Fin 8) : Fin 16 := ⟨k.val, by omega⟩

def voicePlace (v : Fin 8) : Fin 16 := ⟨v.val + 8, by omega⟩

def setPin (s : State) (place : Fin 16) (p : Option Pin) : State := { s with pins := put s.pins place p }

/-! ## Requests -/

/-- The transaction in flight, if it is of a purpose. -/
def carries (s : State) (p : Purpose → Bool) : Bool :=
  match s.port with
  | none => false
  | some f => p f.purpose

/-- Is the transaction in flight of a purpose, and not discarded? -/
def carriesLive (s : State) (p : Purpose → Bool) : Bool :=
  match s.port with
  | none => false
  | some f => f.live && p f.purpose

/-- A read or write in flight becomes one whose answer is discarded or disregarded. -/
def discard (s : State) (p : Purpose → Bool) : State :=
  { s with port := s.port.map fun f => if p f.purpose then { f with live := false } else f }

/-- A waiting LOOKUP request leaves the Arbiter (R20). -/
def withdrawLookup (s : State) (who : Looker) : State :=
  { s with arb := { s.arb with lookups := s.arb.lookups.filter fun l => l.who != who } }

/-- A waiting WRITEBACK request leaves the Arbiter (R20). -/
def withdrawWrite (s : State) (who : Writer) : State :=
  { s with arb := { s.arb with writebacks := s.arb.writebacks.filter fun w => w != who } }

end State

def Purpose.isScript (k : Fin 8) : Purpose → Bool
  | .script j => j == k
  | _ => false

def Purpose.isVoice (v : Fin 8) : Purpose → Bool
  | .clipLine w => w == v
  | .clipGroup w => w == v
  | _ => false

def Purpose.isClipLine (v : Fin 8) : Purpose → Bool
  | .clipLine w => w == v
  | _ => false

def Purpose.isClipGroup (v : Fin 8) : Purpose → Bool
  | .clipGroup w => w == v
  | _ => false

def Purpose.isForwarded : Purpose → Bool
  | .forwarded => true
  | _ => false

def Purpose.isDirectory : Purpose → Bool
  | .directory => true
  | _ => false

def Purpose.isCueLine : Purpose → Bool
  | .cueLine => true
  | _ => false

def Purpose.isRestore : Purpose → Bool
  | .restore => true
  | _ => false

def Purpose.isRecord : Purpose → Bool
  | .record _ => true
  | _ => false

def Purpose.isProducer : Purpose → Bool
  | .producer _ => true
  | _ => false

def Purpose.isConsumer : Purpose → Bool
  | .consumer _ => true
  | _ => false

def Purpose.isPage : Purpose → Bool
  | .page => true
  | _ => false

def Purpose.isSnapshot : Purpose → Bool
  | .snapshot => true
  | _ => false

namespace State

/-- The fetch of a slot is discarded: withdrawn if it waits, its data thrown away if it is in flight (R96). -/
def dropFetch (s : State) (k : Fin 8) : State :=
  let t := { s with arb := { s.arb with script := put s.arb.script k none } }
  t.discard (Purpose.isScript k)

/-- The request of a voice is withdrawn if it waits and discarded if it is in flight (R143). -/
def dropVoiceRequest (s : State) (v : Fin 8) : State :=
  let t := { s with arb := { s.arb with voice := put s.arb.voice v none } }
  (t.withdrawLookup (.clipGroup v)).discard (Purpose.isVoice v)

/-- The Memory Port becomes free (R4). -/
def freePort (s : State) : State := { s with port := none }

/-- An axis with its profile and its step pulses brought to now (log 11). -/
def syncedAxis (s : State) (n : Fin 12) : Axis := (s.axis n).synced (s.axisRecord n)

end State

/-! ## Tasks several blocks ask for -/

/-- Every slot waiting on a condition evaluates it (R104), in rising slot number (log 36). -/
def wakeTasks (s : State) (p : Condition → Bool) : List Task :=
  ((fins 8).filter fun k =>
    match (s.slot k).wait with
    | none => false
    | some w => p w.condition).map .wakeSlot

def Condition.isVoice (z : Fin 8) : Condition → Bool
  | .voice y => y == z
  | _ => false

def Condition.isAxis (n : Fin 12) : Condition → Bool
  | .axis m => m == n
  | _ => false

def Condition.isInput (i : Fin 24) : Condition → Bool
  | .input j _ => j == i
  | _ => false

/-- The test of a slot owner that has given up a possession (R109). -/
def woundTask : Option (Fin 8) → List Task
  | none => []
  | some k => [.testWound k]

end Sys2Proof.Machine
end

