-- ==== Sys2Proof/Machine/Control.lean ====
section
/-! DEFINITION. Show Control (file 11): the show state machine (R172 to R178), the snapshot (R184, R185) and the restore
reader (R186). -/

namespace Sys2Proof.Machine

/-- Is the axis in motion, as the quiet test asks (R174)? -/
def AxisState.inMotion : AxisState → Bool
  | .moving | .homing | .suspending | .suspended | .halting => true
  | .unhomed | .idle | .faulted => false

namespace State

/-- The show state changes, with its SHOW STATE record (R172). -/
def changeShow (s : State) (next : ShowState) : State :=
  let t := s.produce (.showState s.ctl.state next)
  { t with ctl := { t.ctl with state := next } }

/-- A restore read ends: a waiting request is withdrawn and a line in flight is discarded (R186). -/
def dropRestore (s : State) : State :=
  let t := (s.withdrawLookup .restore).discard Purpose.isRestore
  { t with ctl := { t.ctl with restore := none } }

/-- SAFE and DRAINING entry abandon a restore read (R186, log 19). -/
def abandonRestore (s : State) : State :=
  match s.ctl.restore with
  | none => s
  | some _ => s.dropRestore.produce (.restoreDone .abandoned 0)

/-- The load begins at entry to START (R25). -/
def beginLoad (s : State) : State := { s with dir := { s.dir with image := [], load := .loading 0 } }

def enterStart (s : State) : State := (s.changeShow .start).beginLoad

/-- The notices of SAFE entry, in the order R177 lists them. -/
def safeNotices (fromHold : Bool) : List Task :=
  [.dropAll .safe] ++ (fins 8).map (fun k => .stopSlot k .safe) ++ (fins 128).map .safeChannel ++
    (fins 8).map .idleVoice ++ (fins 12).map .safeAxis ++ (if fromHold then [.clearHold] else [])

/-- The show enters SAFE (R177). The house-lights flag, first of the Lamp Unit's changes (R127), is set with the state. -/
def enterSafe (s : State) : Effect :=
  let t := (s.changeShow .safe).abandonRestore
  ({ t with lamp := { t.lamp with houseLights := true } }, safeNotices (s.ctl.state == .hold))

/-- The SAFE trigger reaches Show Control (R177). -/
def takeTrigger (s : State) : Effect :=
  match s.ctl.state with
  | .start => ({ s with ctl := { s.ctl with safePending := true } }, [])
  | .run | .hold | .draining => s.enterSafe
  | .unconfigured | .safe => (s, [])

/-- The notices of DRAINING entry (R174, log 18): the slots in LOADING, RUNNING or HELD are stopped (R114). -/
def drainingNotices (s : State) : List Task :=
  (((fins 8).filter fun k => (s.slot k).state.isRunning).map fun k => .stopSlot k .reload) ++ [.dropAll .reload, .quietTest]

def enterDraining (s : State) : Effect := ((s.changeShow .draining).abandonRestore, s.drainingNotices)

/-- An ignored reload request (R173). -/
def ignoreReload (s : State) : State := s.log .reloadIgnored [s.disp.reloadWord.toNat]

/-- A reload request reaches Show Control (R173). -/
def requestReload (s : State) : Effect :=
  match s.ctl.state with
  | .unconfigured => if s.dir.locked then (s.ignoreReload, []) else (s.enterStart, [])
  | .run => if s.dir.locked then (s.ignoreReload, []) else s.enterDraining
  | .safe => if s.dir.locked then (s.ignoreReload, []) else (s.enterStart, [])
  | .start | .hold | .draining => (s.ignoreReload, [])

/-- Is the show quiet (R174)? -/
def isQuiet (s : State) : Bool :=
  (fins 8).all (fun k => (s.slot k).state == .free) && (fins 8).all (fun v => (s.voice v).state == .idle) &&
    (fins 12).all (fun n => !(s.axis n).state.inMotion)

/-- The test of the end of DRAINING (R174). -/
def testQuiet (s : State) : State := if s.ctl.state = .draining && s.isQuiet then s.enterStart else s

/-- The tasks of a move to RUN from SAFE or START: a scan, then ambient re-requests (R90). -/
def runNotices : List Task := [.askScan, .reRequest]

/-- Every cooldown deadline becomes none (R79). -/
def clearCooldowns (s : State) : State := { s with req := { s.req with cooldown := filled 32 none } }

/-- Show Control leaves START, the load having ended (R172, R173). The Request Unit's part of a take comes here (R90). -/
def leaveStart (s : State) (taken : Bool) : Effect :=
  if s.ctl.state ≠ .start then (s, [])
  else
    let cleared := { s with ctl := { s.ctl with safePending := false } }
    match s.dir.taken with
    | none => (cleared.changeShow .unconfigured, [])
    | some _ =>
      let emptied : List Task := if taken then [.dropAll .reload] else []
      let e := if s.ctl.safePending then cleared.enterSafe else (cleared.changeShow .run, runNotices)
      (if taken then e.1.clearCooldowns else e.1, emptied ++ e.2)

/-! ## Snapshot -/

/-- The body of a snapshot image: lines 0 to 14 (R184, 12.8). `scene` is the scene byte of each slot. -/
def snapshotImage (s : State) (reason : SnapshotReason) (scene : Fin 8 → Byte) : List Byte :=
  let header := [0x49, 0x56, 0x53, 0x53] ++ bytes32 s.dir.sequence.toNat ++ [byteOf reason.code, 0, 0, 0] ++
    bytes32 s.showTime.toNat
  let body := (fins 8).flatMap (fun k => (s.slot k).entryBytes (scene k)) ++
    (fins 128).flatMap (fun c => bytes16 (s.channel c).level)
  let axes := (fins 12).flatMap fun n =>
    bytes16 (s.syncedAxis n).position ++ [byteOf (s.axis n).homed.toNat, 0]
  let languages := (fins 8).map fun z => byteOf (s.zone z).language
  padTo 960 (padTo 0x2C0 (padTo 64 header ++ body) ++ axes ++ languages)

/-- The scene byte of a slot's entry: a FREE slot's is a free value (log 15). -/
def sceneByte (s : State) (k : Fin 8) : Byte :=
  match (s.slot k).holding with
  | some h => byteOf h.scene.val
  | none => Config.freeByte (s.freeDraws + k.val)

/-- A snapshot starts, an older one being abandoned (R184, R185). -/
def startSnapshot (s : State) (reason : SnapshotReason) : State :=
  let t := (s.withdrawWrite .snapshot).discard Purpose.isSnapshot
  { t with
    ctl := { t.ctl with snapshot := some ⟨s.snapshotImage reason s.sceneByte, reason, s.dir.sequence, 0⟩ }
    freeDraws := s.freeDraws + 8 }

/-- No snapshot is being written. -/
def endSnapshot (s : State) : State := { s with ctl := { s.ctl with snapshot := none } }

/-- A take abandons a snapshot (R185). -/
def dropSnapshot (s : State) : State := ((s.withdrawWrite .snapshot).discard Purpose.isSnapshot).endSnapshot

/-- The page is dirty and its writer idle. -/
def pageAgain (s : State) : State := { s with fault := { s.fault with writer := none, dirty := true } }

/-- A page pass is abandoned and the page is marked dirty (R183). -/
def restartPage (s : State) : State := ((s.withdrawWrite .page).discard Purpose.isPage).pageAgain

end State

end Sys2Proof.Machine
end

