-- ==== Sys2Proof/Machine/LampUnit.lean ====
section
/-! DEFINITION. The Lamp Unit (file 07): fades (R118), frames (R119, R120), ownership (R121 to R123), hold (R124), base
levels (R125), SAFE (R127), takes (R117) and restores (R128). -/

namespace Sys2Proof.Machine

/-! ## Fades -/

/-- A fade with its elapsed time brought up to date (R118). -/
def Fade.updated (f : Fade) (now : Time) : Fade :=
  match f.since with
  | none => f
  | some t => { f with elapsed := f.elapsed + elapsedSince t now, since := some now }

/-- The level of a fade whose time has not run out, any fraction dropped toward the start level (R118). -/
def Fade.level (f : Fade) : Nat :=
  if f.start ≤ f.target then f.start + (f.target - f.start) * f.elapsed / f.duration
  else f.start - (f.start - f.target) * f.elapsed / f.duration

def Fade.ended (f : Fade) : Bool := f.duration ≤ f.elapsed

/-- A fade that begins now, from a level (R118). -/
def Fade.begun (level target duration : Nat) (now : Time) : Fade := ⟨level, target, duration, 0, some now⟩

/-! ## Channels -/

namespace Channel

/-- A channel at a frame (R119, step 1). A fade of 0 ms begun in the ms of the frame ends at that frame (R118, log 45). -/
def atFrame (c : Channel) (now : Time) : Channel :=
  match c.fade with
  | none => c
  | some f =>
    let g := f.updated now
    if g.ended then { c with level := g.target, fade := none } else { c with level := g.level, fade := some g }

/-- Does the channel's fade end at this frame as a release fade (R119, step 4)? -/
def releasedAt (c : Channel) (now : Time) : Bool :=
  match c.fade with
  | none => false
  | some f => c.releasing && (f.updated now).ended

/-- What a frame carries for the channel (R119, step 2). -/
def carried (c : Channel) (houseLights : Bool) : Nat := if houseLights then c.work else c.level

/-- A LAMP step on the channel (R121). -/
def lit (c : Channel) (k : Fin 8) (target duration : Nat) (now : Time) : Channel :=
  { c with owner := some k, releasing := false, fade := some (.begun c.level target duration now) }

/-- A fade to base that keeps the owner (R122, R125, R128). -/
def fadedToBase (c : Channel) (duration : Nat) (now : Time) : Channel :=
  { c with fade := some (.begun c.level c.base duration now) }

/-- The release fade of a stopping owner (R122). -/
def released (c : Channel) (k : Fin 8) (duration : Nat) (now : Time) : Channel :=
  if c.owner = some k then { c.fadedToBase duration now with releasing := true } else c

/-- The hold of a restarted owner's channel (R123). -/
def heldLevel (c : Channel) (k : Fin 8) : Channel := if c.owner = some k then { c with fade := none } else c

/-- The fade of a HELD owner's channel is frozen (R124). -/
def frozen (c : Channel) (now : Time) : Channel :=
  { c with fade := c.fade.map fun f => { f.updated now with since := none } }

/-- The fade of a channel whose owner leaves HELD runs again (R124). -/
def thawed (c : Channel) (now : Time) : Channel :=
  { c with fade := c.fade.map fun f => { f with since := some now } }

/-- SET BASE LEVEL on the channel (R125). -/
def rebased (c : Channel) (level duration : Nat) (now : Time) : Channel :=
  let b := { c with base := level }
  match c.owner with
  | none => b.fadedToBase duration now
  | some _ =>
    if c.releasing then
      match c.fade with
      | none => b
      | some f => b.fadedToBase (f.duration - (f.updated now).elapsed) now
    else b

/-- SAFE entry at the channel (R127, step 2). -/
def darkened (c : Channel) : Channel := { c with fade := none, level := c.base, releasing := false, owner := none }

/-- The channel at the take of a directory (R117). -/
def taken (c : Channel) (r : ChannelRecord) (first : Bool) (now : Time) : Channel :=
  let b : Channel :=
    { level := if first then r.base else c.level, fade := none, owner := none, releasing := false, base := r.base,
      work := r.work, zone := numbered 8 r.zone }
  if first then b else b.fadedToBase Config.settleFade now

/-- The channel at a restore (R128): `owner` is the restored slot that owns its zone, if one does. The saved level is taken
as read, above 1000 too (log 46). -/
def restored (c : Channel) (level : Nat) (owner : Option (Fin 8)) (now : Time) : Channel :=
  match owner with
  | some k => { c with owner := some k, level := level, fade := none, releasing := false }
  | none => { c with level := level }.fadedToBase Config.settleFade now

end Channel

namespace State

/-- Fades of the channels a slot owns are frozen, or run again (R124). -/
def freezeFades (s : State) (k : Fin 8) : State :=
  s.mapChannels fun c => if c.owner = some k then c.frozen s.showTime else c

def thawFades (s : State) (k : Fin 8) : State :=
  s.mapChannels fun c => if c.owner = some k then c.thawed s.showTime else c

/-- Release fades of a stopping slot's channels (R122). -/
def releaseChannels (s : State) (k : Fin 8) (duration : Nat) : State :=
  s.mapChannels fun c => c.released k duration s.showTime

/-- The channels of a restarting slot (R123). -/
def holdChannels (s : State) (k : Fin 8) : State := s.mapChannels fun c => c.heldLevel k

/-- A LAMP step's range of channels (R100, R121). -/
def lightChannels (s : State) (k : Fin 8) (first count target duration : Nat) : State :=
  { s with lamp := { s.lamp with channels := tabulate fun c =>
      let x := s.lamp.channels.get c
      if first ≤ c.val && c.val < first + count then x.lit k target duration s.showTime else x } }

/-- SET BASE LEVEL (R125). -/
def setBaseLevels (s : State) (b : BaseLevel) : State :=
  { s with lamp := { s.lamp with channels := tabulate fun c =>
      let x := s.lamp.channels.get c
      if b.first ≤ c.val && c.val < b.first + b.count then x.rebased b.level b.fade s.showTime else x } }

/-- The take at the Lamp Unit (R117, R120): the frame events begin 25 ms after the first take. -/
def takeLamps (s : State) (d : Directory) (first : Bool) : State :=
  { s with lamp := { s.lamp with
      channels := tabulate fun c => (s.lamp.channels.get c).taken (d.channels.get c) first s.showTime
      nextFrame := if first then some (later s.showTime Config.framePeriod) else s.lamp.nextFrame } }

/-- The four frames of a frame event (R120). -/
def frames (s : State) : Vector (List Byte) 4 :=
  tabulate fun link => frameBytes link.val <|
    (fins 32).map fun j => (s.channel ⟨32 * link.val + j.val, by omega⟩).carried s.lamp.houseLights

/-- Is a link's line high at a bit time of the present ms, 250 to the ms? It carries the frame last sent from its frame
event on, and rests high after it and while the link is idle (R190, log 42). -/
def linkHigh (s : State) (link : Fin 4) (bit : Fin 250) : Bool :=
  match s.lamp.nextFrame with
  | none => true
  | some next =>
    let sent := next - BitVec.ofNat 32 Config.framePeriod
    (serialFrame (s.lamp.frames.get link)).getD (250 * elapsedSince sent s.showTime + bit.val) true

/-- A frame event, steps 1 to 3 (R119), the next being due 25 ms on. -/
def sendFrames (s : State) : State :=
  let t := s.mapChannels fun c => c.atFrame s.showTime
  { t with lamp := { t.lamp with frames := t.frames, nextFrame := s.lamp.nextFrame.map (later · Config.framePeriod) } }

/-- A frame event (R119): the channels given back are told of after the frames are sent. -/
def frameEvent (s : State) : Effect :=
  (s.sendFrames, ((fins 128).filter fun c => (s.channel c).releasedAt s.showTime).map .giveUpChannel)

/-- A channel whose release fade has ended is given back (R119, step 4). -/
def giveUpChannel (s : State) (c : Fin 128) : Effect :=
  let x := s.channel c
  if x.releasing && x.fade.isNone then
    (s.setChannel c { x with owner := none, releasing := false }, woundTask x.owner)
  else (s, [])

/-- SAFE entry at one channel (R127). -/
def safeChannel (s : State) (c : Fin 128) : Effect :=
  let x := s.channel c
  (s.setChannel c x.darkened, woundTask x.owner)

/-- The restored slot that owns a channel's zone, if one does (R128). -/
def restoredOwner (s : State) (c : Channel) (restored : List (Fin 8)) : Option (Fin 8) :=
  (c.zone.bind fun z => (s.zone z).owner).filter fun k => restored.contains k

/-- A restore at the Lamp Unit (R128). -/
def restoreLevels (s : State) (lines : List Byte) (restored : List (Fin 8)) : State :=
  { s with lamp := { s.lamp with
      channels := tabulate fun c =>
        (s.channel c).restored (savedLevel lines c) (s.restoredOwner (s.channel c) restored) s.showTime } }

end State

end Sys2Proof.Machine
end

