-- ==== Sys2Proof/Machine/MotionUnit.lean ====
section
/-! DEFINITION. The Motion Unit (file 09): moves (R150, R152), homing (R153, R154), suspension (R155 to R158), stalls (R159),
halts (R160), SAFE (R161), owners given up (R162) and the take (R164). -/

namespace Sys2Proof.Machine

/-- At rest at a place, a motion interrupted or about to begin. -/
def Run.restAt (place : Exact) : Run := ⟨.resting, .whole 0, place, .whole 0, place⟩

namespace Axis

def hasReason (a : Axis) : Bool := a.guardReason || a.holdReason

/-- Is the axis FAULTED by a stall (R159)? -/
def stalled (a : Axis) : Bool := a.state == .faulted && a.lastResult == some .stall

/-- The fields every motion begins with (R150, R154). -/
def begun (a : Axis) (owner : AxisOwner) : Axis :=
  { a with owner := owner, target := none, pendingMove := none, elapsed := 0, suspendedTotal := 0,
           driverEnabled := true, resumeTo := none, suspendedSince := none, origin := a.position,
           run := some (.restAt (.whole a.position)), profileMs := 0, timedOut := false }

/-- Taking up the way to the target from the present place and speed. -/
def moving (rec : AxisRecord) (a : Axis) : Axis := { a.ramped rec with state := .moving, resumeTo := none }

/-- Running toward the home switch (R153). -/
def homing (rec : AxisRecord) (a : Axis) : Axis :=
  { a with state := .homing, resumeTo := none, direction := homeDirection rec }

/-- At rest, suspended, with the state to return to (R155, R156). -/
def suspended (rec : AxisRecord) (a : Axis) (resume : ResumeAxis) (now : Time) : Axis :=
  { a with state := .suspended, resumeTo := some resume, suspendedSince := some now,
           run := some (.restAt (a.place rec)) }

/-- A motion enters its first state, SUSPENDED when a reason is there (R150). -/
def entering (rec : AxisRecord) (a : Axis) (first : ResumeAxis) (now : Time) : Axis :=
  if a.hasReason then a.suspended rec first now
  else
    match first with
    | .moving => a.moving rec
    | .homing => a.homing rec

/-- A move begins: toward the target when the position is known, else homing first (R150). -/
def beginMove (rec : AxisRecord) (a : Axis) (owner : AxisOwner) (target : Nat) (now : Time) : Axis :=
  if a.homed then { a.begun owner with target := some target }.entering rec .moving now
  else { a.begun owner with pendingMove := some target }.entering rec .homing now

/-- The motion ends at rest, IDLE or UNHOMED by the homed flag. -/
def ended (a : Axis) (result : LastResult) : Axis :=
  { a with state := if a.homed then .idle else .unhomed, target := none, pendingMove := none, resumeTo := none,
           suspendedSince := none, lastResult := some result, run := none, timedOut := false }

/-- The motion ends FAULTED at rest. -/
def failed (a : Axis) (result : LastResult) : Axis :=
  { a with state := .faulted, target := none, pendingMove := none, resumeTo := none, suspendedSince := none,
           lastResult := some result, run := none, timedOut := false }

/-- A synced axis slowing to rest because its motion is ended (R149, R160). -/
def halting (rec : AxisRecord) (a : Axis) : Axis :=
  { a.slowed rec with state := .halting, resumeTo := none, suspendedSince := none }

/-- A halt that is at speed 0 from its start: of a HOMING or a SUSPENDED axis (R160). -/
def haltedAtOnce (a : Axis) : Axis :=
  { a with state := .halting, pendingMove := none, resumeTo := none, suspendedSince := none, run := none }

/-- Is a synced axis MOVING, at its target, at speed 0 (R152)? Asked at whole ms alone (log 40). -/
def hasArrived (rec : AxisRecord) (a : Axis) : Bool :=
  a.state == .moving && a.target == some a.position && a.atRest rec

/-- A speed with its direction in one word (12.4). -/
def speedWord (rec : AxisRecord) (a : Axis) : Nat := (a.speed rec).floor.toNat + 65536 * a.direction.code

/-- Is a synced axis MOVING above half its maximum speed (R158)? -/
def breaches (rec : AxisRecord) (a : Axis) : Bool :=
  a.state == .moving && !((a.speed rec).scale 2 1).atMost (.whole rec.maxSpeed)

def withReason (a : Axis) (r : SuspendReason) (present : Bool) : Axis :=
  match r with
  | .guard => { a with guardReason := present }
  | .hold => { a with holdReason := present }

/-- A synced axis with a reason added (R155). -/
def reasoned (rec : AxisRecord) (a : Axis) (r : SuspendReason) (now : Time) : Axis :=
  let b := a.withReason r true
  match b.state with
  | .moving =>
    let c : Axis := { b.slowed rec with state := .suspending, resumeTo := some .moving }
    if c.atRest rec then c.suspended rec .moving now else c
  | .homing => { b with state := .suspended, resumeTo := some .homing, suspendedSince := some now,
                        run := some (.restAt (.whole b.position)) }
  | .unhomed | .idle | .suspending | .suspended | .halting | .faulted => b

/-- The axis takes its resume-to state (R156). -/
def resumed (rec : AxisRecord) (a : Axis) : Axis :=
  match a.resumeTo with
  | some .moving => a.moving rec
  | some .homing => a.homing rec
  | none => a

/-- A synced axis with a reason removed (R156). -/
def relieved (rec : AxisRecord) (a : Axis) (r : SuspendReason) (now : Time) : Axis :=
  let b := a.withReason r false
  if b.hasReason then b
  else
    match b.state with
    | .suspended =>
      let spent := match b.suspendedSince with
        | none => 0
        | some t => elapsedSince t now
      { b with suspendedTotal := b.suspendedTotal + spent, suspendedSince := none }.resumed rec
    | .suspending => b.resumed rec
    | .unhomed | .homing | .idle | .moving | .halting | .faulted => b

/-- Ms spent SUSPENDED in the motion, the present suspension included (R157). -/
def suspendedFor (a : Axis) (now : Time) : Nat :=
  a.suspendedTotal +
    (match a.suspendedSince with
     | none => 0
     | some t => elapsedSince t now)

/-- The axis's record at a take (R164). A HALTING axis is first synced under the old record; a halt that a move timeout
began keeps its outcome (R152, log 47). -/
def taken (old new : AxisRecord) (a : Axis) : Axis :=
  if !new.isEnabled || !old.isEnabled then
    { Axis.reset with direction := a.direction,
                      lastResult := if a.state = .halting then some .halted else a.lastResult }
  else
    let b : Axis := if homeDirection old = homeDirection new then a else { a with homed := false }
    match a.state with
    | .halting =>
      let r := a.synced old
      { b with position := r.position,
               run := some (.slowFrom new .stopping r.direction (.whole a.profileMs) (r.place old) (r.speed old)) }
    | .idle | .unhomed => { b with state := if b.homed then .idle else .unhomed }
    | .homing | .moving | .suspending | .suspended | .faulted => b

end Axis

namespace State

/-- An axis synced, then changed as a function of its record says. -/
def modAxis (s : State) (n : Fin 12) (f : AxisRecord → Axis → Axis) : State :=
  s.setAxis n (f (s.axisRecord n) (s.syncedAxis n))

/-- An owner slot is stopped with end reason AXIS FAULT. -/
def faultOwner (a : Axis) : List Task :=
  match a.owner with
  | .slot k => [.stopSlot k .axisFault]
  | .cue | .nobody => []

/-- A MOVE step reaches an axis (R150). -/
def startMove (s : State) (k : Fin 8) (n : Fin 12) (target : Nat) : Effect :=
  let rec' := s.axisRecord n
  let a := s.syncedAxis n
  let begins : Effect := (s.setAxis n (a.beginMove rec' (.slot k) target s.showTime), [.findHome n, .arrive n])
  match a.state with
  | .idle | .unhomed => begins
  | .faulted => if s.lines.stall.get n = .active then (s, [.stopSlot k .axisFault]) else begins
  | .moving => (s.setAxis n { a.retargeted rec' target with elapsed := 0 }, [.arrive n])
  | .suspending => (s.setAxis n { a with target := some target, elapsed := 0 }, [])
  | .suspended =>
    (s.setAxis n
      (if a.resumeTo = some .homing then { a with pendingMove := some target }
       else { a with target := some target, elapsed := 0 }), [])
  | .homing => (s.setAxis n { a with pendingMove := some target }, [])
  | .halting => (s.setAxis n { a with pendingMove := some target, owner := .slot k }, [])

/-- An axis reaches its target (R152). -/
def arrive (s : State) (n : Fin 12) : Effect :=
  let a := s.syncedAxis n
  if a.hasArrived (s.axisRecord n) then (s.setAxis n { a.ended .done with elapsed := 0 }, [.giveUpAxis n]) else (s, [])

/-- A homing finds its switch (R153). It stops at once (R149): a pending move begins from speed 0 at the home position. -/
def findHome (s : State) (n : Fin 12) : Effect :=
  let rec' := s.axisRecord n
  let a := s.axis n
  if a.state = .homing ∧ s.lines.home.get n = .active then
    let home := homePosition rec'
    let found : Axis := { a with position := home, homed := true, elapsed := 0, origin := home, profileMs := 0,
                                 run := some (.restAt (.whole home)) }
    let t := s.produce (.axisHomed n a.owner home)
    match a.pendingMove with
    | some p =>
      (t.setAxis n ({ found with state := .moving, target := some p, pendingMove := none }.moving rec'), [.arrive n])
    | none => (t.setAxis n (found.ended .done), [.giveUpAxis n])
  else (s, [])

/-- The details of MOTION faults begin with the axis and its owner. -/
def axisDetail (n : Fin 12) (a : Axis) : List Nat := [n.val, a.owner.code]

/-- The move time limit is reached (R152). -/
def timeOutMove (s : State) (n : Fin 12) : Effect :=
  let a := s.syncedAxis n
  let t := s.setAxis n { a.halting (s.axisRecord n) with timedOut := true }
  (t.log .moveTimeout (axisDetail n a ++ [a.position, a.target.getD 0]), faultOwner a ++ [.endHalt n])

/-- The homing limit is reached (R153). -/
def failHoming (s : State) (n : Fin 12) : Effect :=
  let a := s.syncedAxis n
  ((s.setAxis n (a.failed .timeout)).log .homeNotFound (axisDetail n a), faultOwner a ++ [.giveUpAxis n])

/-- May a HOME AXIS cue take the axis, the show being in RUN (R154)? -/
def mayHome (s : State) (n : Fin 12) : Bool :=
  let a := s.axis n
  (s.axisRecord n).isEnabled && (a.state == .unhomed || a.state == .idle || a.state == .faulted) &&
    (match s.axisZone n with
     | none => false
     | some z => (s.zone z).owner.isNone && (s.zone z).reservation.isNone) &&
    !(a.state == .faulted && s.lines.stall.get n == .active)

/-- The cue-homing set of an axis's zone is changed (R62). -/
def mapHoming (s : State) (n : Fin 12) (f : List (Fin 12) → List (Fin 12)) : State :=
  { s with zones := tabulate fun z =>
      if s.axisZone n = some z then { s.zones.get z with cueHoming := f (s.zones.get z).cueHoming } else s.zones.get z }

/-- An axis enters its zone's cue-homing set (R62). -/
def addHoming (s : State) (n : Fin 12) : State := s.mapHoming n fun set => if set.contains n then set else set ++ [n]

def removeHoming (s : State) (n : Fin 12) : State := s.mapHoming n fun set => set.filter fun m => m != n

/-- A HOME AXIS cue takes an axis (R154). -/
def homeByCue (s : State) (n : Fin 12) : Effect :=
  let a := (s.axis n).begun .cue
  ((s.setAxis n (a.entering (s.axisRecord n) .homing s.showTime)).addHoming n, [.findHome n])

/-- A reason joins an axis (R155); a breach is logged first, and its trigger acts last (R158, log 12). -/
def addReason (s : State) (n : Fin 12) (r : SuspendReason) : Effect :=
  let rec' := s.axisRecord n
  let a := s.syncedAxis n
  let breach := r = .guard && a.breaches rec'
  let t := if breach then
      s.log .enclosureBreach [n.val, rec'.zone, a.owner.code, a.speedWord rec', a.position]
    else s
  (t.setAxis n (a.reasoned rec' r s.showTime), if breach then s.trigger else [])

/-- A reason leaves an axis (R156). -/
def removeReason (s : State) (n : Fin 12) (r : SuspendReason) : Effect :=
  (s.modAxis n fun rec' a => a.relieved rec' r s.showTime, [.arrive n, .findHome n])

/-- A SUSPENDING axis has come to rest (R155). -/
def restSuspended (s : State) (n : Fin 12) : State :=
  s.modAxis n fun rec' a => a.suspended rec' (a.resumeTo.getD .moving) s.showTime

/-- The suspend limit is reached (R157). -/
def abandonMotion (s : State) (n : Fin 12) : Effect :=
  let a := s.axis n
  ((s.setAxis n (a.ended .abandoned)).log .suspendLimit (axisDetail n a ++ [a.position, a.reasonCode]), [.giveUpAxis n])

/-- A stall, steps 1 to 3 (R159); the stop and the owner's clearing follow the trigger (log 12). -/
def stallAxis (s : State) (n : Fin 12) : Effect :=
  let a := s.syncedAxis n
  let t := s.setAxis n { a.failed .stall with homed := false, driverEnabled := false }
  (t.log .stall (axisDetail n a ++ [a.state.code, a.position]), s.trigger ++ [.stopStalled n])

/-- A stall found at a take: the stall input is active and the axis is not already FAULTED by one (R164; in rising
axis number, log 49). -/
def stallAtTake (s : State) (n : Fin 12) : Effect :=
  if (s.axisRecord n).isEnabled && s.lines.stall.get n == .active && !(s.axis n).stalled then s.stallAxis n else (s, [])

/-- Steps 4 and 5 of a stall (R159). -/
def stopStalled (s : State) (n : Fin 12) : Effect := (s, faultOwner (s.axis n) ++ [.giveUpAxis n])

/-- A halt reaches an axis (R160). -/
def haltAxis (s : State) (n : Fin 12) : Effect :=
  let a := s.syncedAxis n
  match a.state with
  | .moving | .suspending => (s.setAxis n (a.halting (s.axisRecord n)), [.endHalt n])
  | .homing | .suspended => (s.setAxis n a.haltedAtOnce, [.endHalt n])
  | .halting => (s.setAxis n { a with pendingMove := none }, [])
  | .unhomed | .idle | .faulted => (s, [])


/-- A halt that has come to rest ends: in a pending move, in a timeout's fault, or at rest (R152, R160, log 22). -/
def endHalt (s : State) (n : Fin 12) : Effect :=
  let rec' := s.axisRecord n
  let a := s.syncedAxis n
  if a.state = .halting && a.atRest rec' then
    match a.pendingMove with
    | some p => (s.setAxis n (a.beginMove rec' a.owner p s.showTime), [.findHome n, .arrive n])
    | none => (s.setAxis n (if a.timedOut then a.failed .timeout else a.ended .halted), [.giveUpAxis n])
  else (s, [])

/-- SAFE entry at an axis (R161). A halt that a move timeout began keeps its outcome (R152, log 47). -/
def safeAxis (s : State) (n : Fin 12) : Effect :=
  let a := s.syncedAxis n
  let b : Axis := match a.state with
    | .moving | .suspending => a.halting (s.axisRecord n)
    | .homing | .suspended => a.ended .halted
    | .unhomed | .idle | .halting | .faulted => a
  (s.setAxis n { b with pendingMove := none }, [.giveUpAxis n, .endHalt n])

/-- SAFE entry from HOLD: the HOLD reason leaves every axis and none resumes (R161). -/
def clearHold (s : State) : State := { s with axes := tabulate fun n => { s.axes.get n with holdReason := false } }

/-- An axis gives up its owner, and its neighbours are told (R162). -/
def giveUpAxis (s : State) (n : Fin 12) : Effect :=
  let a := s.axis n
  let t := s.setAxis n { a with owner := .nobody }
  match a.owner with
  | .slot k => (t, wakeTasks s (Condition.isAxis n) ++ [.testWound k, .quietTest])
  | .cue => (t.removeHoming n, [.askScan, .quietTest])
  | .nobody => (t, [.quietTest])

/-- The take at the Motion Unit (R164), with the GUARD reasons set to the zones' guards (R58). -/
def takeAxes (s : State) (old : Fin 12 → AxisRecord) : State :=
  { s with axes := tabulate fun n =>
      let new := s.axisRecord n
      let a := (s.axes.get n).taken (old n) new
      let guarded := new.isEnabled &&
        (match s.axisZone n with
         | none => false
         | some z => (s.zone z).guard != .clear)
      { a with guardReason := guarded, holdReason := false } }

/-- A step pulse moves the position by 1 in the direction of travel (R148). -/
def pulse (s : State) (n : Fin 12) : State :=
  let a := s.axis n
  s.setAxis n { a with position := wrapPosition ((a.position : Int) + a.direction.sign) }

end State

end Sys2Proof.Machine
end

