-- ==== Sys2Proof/Machine/NarrationUnit.lean ====
section
/-! DEFINITION. The Narration Unit (file 08): starting a narration (R133), variants (R134, R135), clip lines (R137), samples
(R132, R138, R140), cuts (R141), IDLE (R139) and HOLD (R145). -/

namespace Sys2Proof.Machine

/-- May the voice be cut to STOPPING: does it hold a clip and is it not already stopping (R141)? -/
def VoiceState.hasClip : VoiceState → Bool
  | .fetching | .playing | .starved | .paused | .draining => true
  | .idle | .lookup | .stopping => false

/-- Does a voice in this state raise clip reads (R136)? -/
def VoiceState.fetches : VoiceState → Bool
  | .fetching | .playing | .starved | .paused => true
  | .idle | .lookup | .draining | .stopping => false

namespace Voice

def playedLength (v : Voice) : Nat :=
  match v.clip with
  | none => 0
  | some c => c.length

/-- The voice entering STOPPING at a cut (R141): one cut from PAUSED or STARVED stays silent (log 39). -/
def cut (v : Voice) (now : Time) (next : Option Nat) : Voice :=
  { v with state := .stopping, cutDeadline := some (later now Config.cutLength), pendingGroup := next, resumeTo := none,
           muted := v.state == .paused || v.state == .starved }

/-- The voice become IDLE (R139); its output falls to 0 at the next sample instant. -/
def idled (v : Voice) : Voice := { Voice.reset with output := v.output }

/-- The state after a line has arrived (R137); `held` tells that the show is in HOLD (R145). -/
def afterLine (v : Voice) (held : Bool) : Voice :=
  let whole : Bool := v.fetchPos == v.playedLength
  match v.state with
  | .fetching =>
    if whole then
      if held then { v with state := .paused, resumeTo := some .draining } else { v with state := .draining }
    else if 2048 ≤ v.buffer.length then
      if held then { v with state := .paused, resumeTo := some .playing } else { v with state := .playing }
    else v
  | .playing => if whole then { v with state := .draining } else v
  | .starved =>
    if whole then { v with state := .draining }
    else if 512 ≤ v.buffer.length then { v with state := .playing } else v
  | .paused =>
    if whole then { v with resumeTo := some .draining }
    else if v.resumeTo = some .starved && 512 ≤ v.buffer.length then { v with resumeTo := some .playing }
    else v
  | .idle | .lookup | .draining | .stopping => v

/-- The next clip sample (R132). -/
def nextSample (v : Voice) : Int := (BitVec.ofNat 16 (word16At v.buffer 0)).toInt

def gain (v : Voice) : Nat :=
  match v.clip with
  | none => 0
  | some c => c.gain

/-- Two bytes taken from the buffer (R132). -/
def advanced (v : Voice) (out : Int) : Voice :=
  { v with buffer := v.buffer.drop 2, playPos := v.playPos + 2, output := BitVec.ofInt 16 out }

def silent (v : Voice) : Voice := { v with output := 0 }

/-- Ms of the cut fade still to run: 50 less the time since the cut began, at least 0 (R132). It is 50 in the ms of the cut,
so a last sample cut in its own instant keeps its full level, which R140 calls reduced (log 51). -/
def cutLeft (v : Voice) (now : Time) : Nat :=
  match v.cutDeadline with
  | none => 0
  | some d => Config.cutLength - (now - (d - BitVec.ofNat 32 Config.cutLength)).toNat

/-- The voice at a sample instant, a starvation's records left aside (R132, R138). A muted voice gives no sample (log 39). -/
def sampled (v : Voice) (now : Time) : Voice :=
  let full : Bool := 2 ≤ v.buffer.length
  match v.state with
  | .playing =>
    if full then v.advanced ((v.nextSample * v.gain).tdiv 100)
    else { v.silent with state := .starved, starvedReported := true }
  | .draining => v.advanced ((v.nextSample * v.gain).tdiv 100)
  | .stopping =>
    if full && !v.muted then v.advanced ((v.nextSample * v.gain * v.cutLeft now).tdiv 5000) else v.silent
  | .idle | .lookup | .fetching | .starved | .paused => v.silent

/-- Does the voice starve at this sample instant, with its report still to come (R138)? -/
def reportsStarving (v : Voice) : Bool := v.state == .playing && v.buffer.length < 2 && !v.starvedReported

/-- Has the voice played its last sample (R140)? -/
def finished (v : Voice) : Bool := v.state == .draining && v.playPos == v.playedLength

/-- Entry to HOLD (R145). -/
def paused (v : Voice) : Voice :=
  match v.state with
  | .playing => { v with state := .paused, resumeTo := some .playing }
  | .starved => { v with state := .paused, resumeTo := some .starved }
  | .draining => { v with state := .paused, resumeTo := some .draining }
  | .idle | .lookup | .fetching | .paused | .stopping => v

/-- Leaving HOLD for RUN (R145). -/
def resumed (v : Voice) : Voice :=
  if v.state = .paused then
    match v.resumeTo with
    | some .playing => { v with state := .playing, resumeTo := none }
    | some .starved => { v with state := .starved, resumeTo := none }
    | some .draining => { v with state := .draining, resumeTo := none }
    | none => v
  else v

end Voice

namespace State

/-- A NARRATE step reaches a voice (R133). -/
def startNarration (s : State) (k : Fin 8) (v : Fin 8) (group : Nat) : State :=
  let x := s.voice v
  match x.state with
  | .idle => s.setVoice v { x with owner := some k, group := some group, state := .lookup }
  | .lookup => (s.dropVoiceRequest v).setVoice v { x with group := some group }
  | .fetching | .playing | .starved | .draining | .paused =>
    (s.dropVoiceRequest v).setVoice v (x.cut s.showTime (some group))
  | .stopping => s.setVoice v { x with pendingGroup := some group }

/-- A cut asked for by a stop or a restart (R141). -/
def cutVoice (s : State) (v : Fin 8) : Effect :=
  let x := s.voice v
  match x.state with
  | .idle => (s, [])
  | .lookup => (s, [.idleVoice v])
  | .fetching | .playing | .starved | .draining | .paused =>
    ((s.dropVoiceRequest v).setVoice v (x.cut s.showTime none), [])
  | .stopping => (s.setVoice v { x with pendingGroup := none }, [])

/-- A voice becomes IDLE (R139). -/
def idleVoice (s : State) (v : Fin 8) : Effect :=
  let x := s.voice v
  if x.state = .idle then (s, [])
  else
    (((s.dropVoiceRequest v).setPin (voicePlace v) none).setVoice v x.idled,
      wakeTasks s (Condition.isVoice v) ++ woundTask x.owner ++ [.quietTest])

/-- The end of a cut (R141). -/
def endCut (s : State) (v : Fin 8) : Effect :=
  let x := s.voice v
  match x.pendingGroup with
  | none => (s, [.idleVoice v])
  | some g =>
    ((s.setPin (voicePlace v) none).setVoice v
      { x with state := .lookup, group := some g, pendingGroup := none, cutDeadline := none, buffer := [], clip := none,
               fetchPos := 0, playPos := 0, muted := false }, [])

/-- The details CLIP MISSING, CLIP WRAP and CLIP READ FAILED begin with: the voice and its owner slot. -/
def voiceDetail (s : State) (v : Fin 8) : List Nat := [v.val, ownerCode (s.voice v).owner]

/-- A voice takes the variant chosen (R134). -/
def chooseClip (s : State) (v : Fin 8) (c : Clip) : State :=
  let t := s.setVoice v { s.voice v with clip := some c, fetchPos := 0, playPos := 0, buffer := [], starvedReported := false }
  let u := if c.crosses then t.log .clipWrap (s.voiceDetail v ++ [c.address, c.length]) else t
  (u.setPin (voicePlace v) (some c.pin)).setVoice v { u.voice v with state := .fetching }

/-- A clip group record arrives (R134). -/
def takeClipGroup (s : State) (v : Fin 8) (line : List Byte) : Effect :=
  let language := (s.zone v).language
  match chooseVariant line language with
  | none => (s.log .clipMissing (s.voiceDetail v ++ [(s.voice v).group.getD 0, language]), [.idleVoice v])
  | some c => (s.chooseClip v c, [])

/-- A clip line arrives (R137). -/
def takeClipLine (s : State) (v : Fin 8) (data : List Byte) : State :=
  let x := s.voice v
  let y := { x with buffer := x.buffer ++ data, fetchPos := x.fetchPos + data.length }
  s.setVoice v (y.afterLine (s.ctl.state == .hold))

/-- A read of a voice is answered MEMORY ERROR (R143, R144). -/
def failVoiceRead (s : State) (v : Fin 8) (live : Bool) (addr : Nat) : Effect :=
  if live then
    (s.log .clipReadFailed (s.voiceDetail v ++ [(s.voice v).group.getD 0, addr]), [.idleVoice v])
  else (s.log .clipReadFailed [v.val, addr], [])

/-- The records of a starvation (R138). -/
def reportStarving (s : State) (v : Fin 8) : State :=
  let x := s.voice v
  let address := match x.clip with
    | none => 0
    | some c => c.address
  (s.produce (.voiceStarved v x.owner address)).log .starved (s.voiceDetail v ++ [address, x.playPos])

/-- One voice at a sample instant (R132): having played its last sample it becomes IDLE (R140). -/
def sampleVoice (s : State) (v : Fin 8) : Effect :=
  let t := if (s.voice v).reportsStarving then s.reportStarving v else s
  let x := (s.voice v).sampled s.showTime
  (t.setVoice v x, if x.finished then [.idleVoice v] else [])

/-- A sample instant (R132, log 8): the voices in rising number, each whole before the next. -/
def sampleAll (s : State) : Effect := ({ s with sampleCount := s.sampleCount + 1 }, (fins 8).map .sampleVoice)

def pauseVoices (s : State) : State := { s with voices := tabulate fun v => (s.voices.get v).paused }

def resumeVoices (s : State) : State := { s with voices := tabulate fun v => (s.voices.get v).resumed }

end State

end Sys2Proof.Machine
end

