-- ==== Sys2Proof/Machine/ZoneUnit.lean ====
section
/-! DEFINITION. The Zone Unit (file 04): claims, reservations and release (R59 to R61, R63), guards (R66), debounce (R69),
zone language (R72) and the take (R58). -/

namespace Sys2Proof.Machine

namespace Zone

/-- May a scan start a request in the zone (R83, 1), and may a restore claim it (R63)? -/
def isFree (z : Zone) : Bool := !z.closed && z.owner.isNone && z.reservation.isNone && z.cueHoming.isEmpty

/-- Is the zone open to a reservation (R83, 2)? -/
def mayReserve (z : Zone) : Bool := !z.closed && z.reservation.isNone && z.cueHoming.isEmpty

end Zone

namespace State

/-- Every zone of a set is changed alike. -/
def mapZones (s : State) (set : Nat) (f : Zone → Zone) : State :=
  { s with zones := tabulate fun z => if hasMember set z.val then f (s.zones.get z) else s.zones.get z }

/-- A claim of a scene's zones for a slot, clearing the reservation the scene held (R59). -/
def claim (s : State) (k : Fin 8) (scene : Fin 32) : State :=
  s.mapZones (s.sceneRecord scene).zoneSet fun z =>
    { z with owner := some k, reservation := if z.reservation = some scene then none else z.reservation }

/-- A reservation of a scene's zones (R60). -/
def reserve (s : State) (scene : Fin 32) : State :=
  s.mapZones (s.sceneRecord scene).zoneSet fun z => { z with reservation := some scene }

/-- The reservations held for a scene are cleared (R60, R89). -/
def unreserve (s : State) (scene : Fin 32) : State :=
  s.mapZones 0xFF fun z => if z.reservation = some scene then { z with reservation := none } else z

/-- A slot's zones are released (R61). -/
def releaseZones (s : State) (k : Fin 8) : State :=
  s.mapZones 0xFF fun z => if z.owner = some k then { z with owner := none } else z

/-! ## Guards -/

/-- The zone a guard line is wired to: the enabled zone whose record names it (R66, R68). -/
def guardZone (s : State) (line : Fin 8) : Option (Fin 8) :=
  (fins 8).find? fun z => (s.zoneRecord z).isEnabled && (s.zoneRecord z).guardInput == line.val

/-- A guard input goes active at its zone (R66); its axes take GUARD in rising number (log 35). -/
def tripGuard (s : State) (z : Fin 8) : Effect :=
  let x := s.zone z
  match x.guard with
  | .clear => (s.setZone z { x with guard := .tripped }, (s.zoneAxes z).map fun n => .addReason n .guard)
  | .settling => (s.setZone z { x with guard := .tripped, settle := none }, [])
  | .tripped => (s, [])

/-- A guard input goes inactive at its zone (R66). -/
def settleGuard (s : State) (z : Fin 8) : State :=
  let x := s.zone z
  match x.guard with
  | .tripped =>
    s.setZone z { x with guard := .settling, settle := some (later s.showTime (s.zoneRecord z).settleTime) }
  | .clear | .settling => s

/-- A settle deadline is reached (R66); its axes lose GUARD in rising number (log 35). -/
def clearGuard (s : State) (z : Fin 8) : Effect :=
  (s.setZone z { s.zone z with guard := .clear, settle := none }, (s.zoneAxes z).map fun n => .removeReason n .guard)

/-! ## Visitor inputs -/

def debounceTime (s : State) : Nat :=
  match s.dir.taken with
  | none => 0
  | some d => d.debounce

def languageCount (s : State) : Nat :=
  match s.dir.taken with
  | none => 0
  | some d => d.languages

/-- A visitor line takes a new level (R69). -/
def followLine (s : State) (i : Fin 24) (level : Level) : State :=
  let x := s.input i
  s.setInput i
    { x with raw := level
             deadline := if level = x.debounced then none else some (later s.showTime s.debounceTime) }

/-- The taken level changes (R69). -/
def takeLevel (s : State) (i : Fin 24) : State :=
  let x := s.input i
  s.setInput i { x with debounced := x.raw, deadline := none }

/-- A language button's press steps its zone's language (R72). -/
def stepLanguage (s : State) (i : Fin 24) : State :=
  match numbered 8 (s.inputRecord i).zone with
  | none => s
  | some z =>
    let x := s.zone z
    s.setZone z { x with language := if x.language + 1 < s.languageCount then x.language + 1 else 0 }

/-! ## The take and the restore -/

/-- A zone's record at a take (R58). -/
def takenZone (lines : Lines) (r : ZoneRecord) : Zone :=
  { closed := false, owner := none, reservation := none,
    guard :=
      (match numbered 8 r.guardInput with
       | none => .clear
       | some g => if r.isEnabled && lines.guard.get g == .active then .tripped else .clear),
    settle := none, language := if r.isEnabled then r.defaultLanguage else 0, cueHoming := [] }

/-- The take at the Zone Unit (R58). -/
def takeZones (s : State) (d : Directory) : State :=
  { s with
    zones := tabulate fun z => takenZone s.lines (d.zones.get z)
    inputs := tabulate fun i => ⟨s.lines.visitor.get i, s.lines.visitor.get i, none⟩ }

/-- The saved languages of the enabled zones (R187, 3). -/
def restoreLanguages (s : State) (lines : List Byte) : State :=
  { s with zones := tabulate fun z =>
      let r := s.zoneRecord z
      let saved := savedLanguage lines z
      if r.isEnabled then
        { s.zones.get z with language := if saved < s.languageCount then saved else r.defaultLanguage }
      else s.zones.get z }

end State

end Sys2Proof.Machine
end

