-- ==== Sys2Proof/Machine/RequestUnit.lean ====
section
/-! DEFINITION. The Request Unit (file 05): admission (R75 to R78), the scan (R80 to R85), expiry (R86, R87), removals (R88 to
R90) and ambient re-requests (R91). -/

namespace Sys2Proof.Machine

/-- Is the slot one a restart may take (R82)? -/
def SlotState.mayRestart : SlotState → Bool
  | .loading | .running => true
  | .free | .held | .stopping => false

def Origin.isTrigger : Origin → Bool
  | .trigger _ => true
  | .cue _ | .auto => false

/-- What admission decides of a new request, for each origin (the admission table of 5.2). -/
inductive Admission where
  /-- Turned away: the cue's answer, and the reason of the REQUEST DROPPED record of another origin, if one is made. -/
  | turnedAway (answer : Reason) (drop : Option DropReason)
  | merged
  | queued (restart : Bool)
  deriving DecidableEq, Repr

namespace State

def queuedRequest (s : State) (scene : Fin 32) : Option Request := s.req.queue.find? fun r => r.scene == scene

def setQueue (s : State) (q : List Request) : State := { s with req := { s.req with queue := q } }

/-- Has a scene a running instance (R78)? -/
def hasInstance (s : State) (scene : Fin 32) : Bool := !(s.slotsWith scene SlotState.isRunning).isEmpty

/-- The checks of R77 and R78, made in RUN and HOLD. A running cooldown turns a TRIGGER request away without a record; a
CUE or AUTO request never meets it, so its answer is never given. -/
def admitToQueue (s : State) (scene : Fin 32) (origin : Origin) : Admission :=
  let rec' := s.sceneRecord scene
  if origin.isTrigger && (s.req.cooldown.get scene).isSome then .turnedAway .busy none
  else if (s.queuedRequest scene).isSome then .merged
  else
    let running := s.hasInstance scene
    if running && rec'.policy == 0 then .turnedAway .busy none
    else if Config.requestQueueSize ≤ s.req.queue.length then .turnedAway .queueFull (some .queueFull)
    else .queued (running && rec'.policy == 1)

/-- Admission (R76 to R78). -/
def admission (s : State) (scene : Fin 32) (origin : Origin) : Admission :=
  let rec' := s.sceneRecord scene
  if !rec'.isEnabled then .turnedAway .range (some .disabled)
  else if rec'.zones.any fun z => (s.zone z).closed then .turnedAway .zoneClosed (some .zoneClosed)
  else
    match s.ctl.state with
    | .draining | .start => .turnedAway .reloading (some .reloading)
    | .safe | .unconfigured => .turnedAway .wrongState (some .wrongState)
    | .run | .hold => s.admitToQueue scene origin

/-- A new request becomes the tail of the queue (R75). -/
def enqueue (s : State) (scene : Fin 32) (origin : Origin) (restart : Bool) : State :=
  let limit := (s.sceneRecord scene).waitLimit
  s.setQueue (s.req.queue ++ [⟨scene, origin, 1000 * limit, limit == 0, .waiting, restart⟩])

/-- A TRIGGER or AUTO request is admitted or turned away (R75 to R78). -/
def request (s : State) (scene : Fin 32) (origin : Origin) : Effect :=
  match s.admission scene origin with
  | .turnedAway _ (some reason) => (s.produce (.requestDropped scene origin reason), [])
  | .turnedAway _ none | .merged => (s, [])
  | .queued restart => (s.enqueue scene origin restart, [.askScan])

/-- An AUTO request, if the scene calls for one (R91). -/
def autoRequest (s : State) (scene : Fin 32) : Effect :=
  let rec' := s.sceneRecord scene
  if rec'.isEnabled && rec'.autoStart && (s.slotsWith scene fun x => x != .free).isEmpty &&
      (s.queuedRequest scene).isNone then
    s.request scene .auto
  else (s, [])

/-- An ambient re-request (R91); one made during a scan follows it. -/
def reRequest (s : State) : Effect :=
  if s.req.underWay then ({ s with req := { s.req with owed := s.req.owed + 1 } }, [])
  else if s.ctl.state = .run ∨ s.ctl.state = .hold then (s, (fins 32).map .autoRequest)
  else (s, [])

/-! ## Removals -/

/-- A request leaves the queue without starting (R89). -/
def drop (s : State) (r : Request) (reason : DropReason) : State :=
  ((s.setQueue (s.req.queue.filter fun q => q.scene != r.scene)).unreserve r.scene).produce
    (.requestDropped r.scene r.origin reason)

/-- The requests that satisfy a condition leave the queue, in queue order. -/
def dropWhere (s : State) (p : Request → Bool) (reason : DropReason) : State :=
  (s.req.queue.filter p).foldl (fun t r => t.drop r reason) s

def dropAll (s : State) (reason : DropReason) : State := s.dropWhere (fun _ => true) reason

/-! ## The scan -/

/-- A scan is asked for (R80). -/
def askScan (s : State) : Effect :=
  if s.ctl.state ≠ .run then (s, [])
  else if s.req.underWay then ({ s with req := { s.req with scanPending := true } }, [])
  else
    ({ s with req := { s.req with underWay := true } },
      ((s.req.queue.filter fun r => r.state == .preempting).map fun r => .judgePreempting r.scene) ++ [.waitingPhase])

/-- The WAITING phase takes the WAITING requests in queue order (R82, R83). -/
def waitingPhase (s : State) : Effect :=
  (s, ((s.req.queue.filter fun r => r.state == .waiting).map fun r => .judgeWaiting r.scene) ++ [.endScan])

def freeSlot (s : State) : Option (Fin 8) := (fins 8).find? fun k => (s.slot k).state == .free

/-- The cooldown deadline a start or a restart sets (R79). -/
def setCooldown (s : State) (scene : Fin 32) : State :=
  let c := (s.sceneRecord scene).cooldown
  let deadline := if c = 0 then none else some (later s.showTime (1000 * c))
  { s with req := { s.req with cooldown := put s.req.cooldown scene deadline } }

/-- The slot's fields when it leaves FREE (R93). -/
def occupied (s : State) (scene : Fin 32) : Slot :=
  { Slot.reset with state := .loading, holding := some ⟨scene, (s.sceneRecord scene).sceneClass, s.showTime⟩ }

/-- The pin of a script (R166). -/
def scriptPin (s : State) (scene : Fin 32) : Pin := ⟨(s.sceneRecord scene).scriptExtent, none⟩

/-- A request starts in a slot (R84, R93). -/
def start (s : State) (r : Request) (k : Fin 8) : State :=
  let t := ((s.claim k r.scene).setSlot k (s.occupied r.scene)).setPin (slotPlace k) (some (s.scriptPin r.scene))
  let u := t.setCooldown r.scene
  (u.setQueue (u.req.queue.filter fun q => q.scene != r.scene)).produce (.sceneStarted r.scene k r.origin false)

/-- A request is restarted into its running slot (R82). -/
def restartInto (s : State) (r : Request) (k : Fin 8) : Effect :=
  let t := (s.setQueue (s.req.queue.filter fun q => q.scene != r.scene)).setCooldown r.scene
  (t.produce (.sceneStarted r.scene k r.origin true), [.restart k])

/-- A request begins pre-emption (R85): the owners of its zones are stopped in rising slot number. -/
def preempt (s : State) (r : Request) : Effect :=
  let zones := (s.sceneRecord r.scene).zones
  let t := s.setQueue (s.req.queue.map fun q => if q.scene = r.scene then { q with state := .preempting } else q)
  (t.reserve r.scene,
    ((fins 8).filter fun k => zones.any fun z => (s.zone z).owner == some k).map fun k => .stopSlot k .preempted)

/-- A PREEMPTING request is judged (R81). -/
def judgePreempting (s : State) (scene : Fin 32) : Effect :=
  match s.queuedRequest scene, s.freeSlot with
  | some r, some k =>
    if r.state = .preempting && (s.sceneRecord scene).zones.all fun z => (s.zone z).owner.isNone then (s.start r k, [])
    else (s, [])
  | _, _ => (s, [])

/-- Has an older request a zone in common (R83)? -/
def isBlocked (s : State) (r : Request) : Bool :=
  (s.req.queue.takeWhile fun q => q.scene != r.scene).any fun q =>
    (s.sceneRecord q.scene).sharesZone (s.sceneRecord r.scene)

/-- Is a zone unowned, or owned by a slot of strictly lower class that still runs (R83, 2)? -/
def mayTakeFrom (s : State) (cls : SceneClass) (z : Fin 8) : Bool :=
  match (s.zone z).owner with
  | none => true
  | some k =>
    (s.slot k).state.isRunning &&
      (match (s.slot k).holding with
       | none => false
       | some h => h.cls.rank < cls.rank)

/-- May a request begin pre-emption (R83, 2)? -/
def mayPreempt (s : State) (scene : Fin 32) : Bool :=
  let rec' := s.sceneRecord scene
  rec'.zones.all (fun z => (s.zone z).mayReserve && s.mayTakeFrom rec'.sceneClass z) &&
    rec'.zones.any (fun z => (s.zone z).owner.isSome)

/-- A WAITING request is judged: restarted, started, set PREEMPTING or left (R82, R83). -/
def judgeWaiting (s : State) (scene : Fin 32) : Effect :=
  match s.queuedRequest scene with
  | none => (s, [])
  | some r =>
    if r.state ≠ .waiting then (s, [])
    else
      match r.restart, s.slotsWith scene SlotState.mayRestart with
      | true, k :: _ => s.restartInto r k
      | _, _ =>
        if s.isBlocked r then (s, [])
        else
          match s.freeSlot, (s.sceneRecord scene).zones.all fun z => (s.zone z).isFree with
          | some k, true => (s.start r k, [])
          | _, _ => if s.mayPreempt scene then s.preempt r else (s, [])

/-- The scans and re-requests that waited for a scan, or for a HOME AXIS ALL, to end (R80, R91, log 14). -/
def resumeScans (s : State) : Effect :=
  ({ s with req := { s.req with underWay := false, scanPending := false, owed := 0 } },
    (if s.req.scanPending then [.askScan] else []) ++ List.replicate s.req.owed .reRequest)

/-- The end of a scan: single-chance removals (R87), then the further scan asked for meanwhile (R80), then the ambient
re-requests that waited for it (R91). -/
def endScan (s : State) : Effect :=
  (s.dropWhere (fun r => r.single && r.state == .waiting) .expired).resumeScans

end State

end Sys2Proof.Machine
end

