-- ==== Sys2Proof/Machine/SceneRunner.lean ====
section
/-! DEFINITION. The Scene Runner (file 06): loading (R94 to R96), steps (R98 to R107), stops (R108 to R110), restarts (R112),
HOLD (R113) and restored slots (R115). -/

namespace Sys2Proof.Machine

/-- Is a saved entry one that ends in a script fault (R115)? -/
def SavedSlot.isFaulty (saved : SavedSlot) (steps : Nat) : Bool := steps < saved.next || Config.clockEnd < saved.clock

namespace State

/-- The details SCENE faults of a live slot begin with: slot, scene and start time. -/
def slotDetail (s : State) (k : Fin 8) : List Nat :=
  match (s.slot k).holding with
  | none => [k.val, 0, 0]
  | some h => [k.val, h.scene.val, h.startTime.toNat]

/-! ## Stops -/

/-- Cuts and halts of what a slot owns, in rising number (R108, R112). -/
def quell (s : State) (k : Fin 8) : List Task := (s.ownedVoices k).map .cutVoice ++ (s.ownedAxes k).map .haltAxis

/-- A stop of a slot (R108). -/
def stopSlot (s : State) (k : Fin 8) (reason : EndReason) : Effect :=
  let x := s.slot k
  match x.state with
  | .free => (s, [])
  | .loading | .running | .held =>
    let t := (s.dropFetch k).setSlot k
      { x with state := .stopping, endReason := some reason, wait := none, loop := none, buffer := [], savedClock := none }
    (t.releaseChannels k (s.slotScene k).releaseFade,
      (if reason = .completed then [] else s.quell k) ++ [.testWound k])
  | .stopping =>
    if x.endReason = some .completed ∧ reason ≠ .completed then (s, s.quell k) else (s, [])

/-- A wound-down slot becomes FREE (R109, R110). -/
def testWound (s : State) (k : Fin 8) : Effect :=
  let x := s.slot k
  if x.state = .stopping && s.woundDown k then
    let t := ((s.releaseZones k).setPin (slotPlace k) none).setSlot k
      { x with state := .free, holding := none, endReason := none }
    (match x.holding, x.endReason with
     | some h, some reason => t.produce (.sceneEnded h.scene k reason)
     | _, _ => t,
      [.quietTest, .askScan, .reRequest])
  else (s, [])

/-- A restart of a slot in LOADING or RUNNING (R112, log 28). -/
def restart (s : State) (k : Fin 8) : Effect :=
  let x := s.slot k
  if x.state.mayRestart then
    let t := (s.dropFetch k).setSlot k
      { x with state := .loading, holding := x.holding.map fun h => { h with startTime := s.showTime }, clock := 0,
               next := 0, fetch := 0, buffer := [], lines := 0, wait := none, loop := none, savedClock := none }
    (t.holdChannels k, s.quell k)
  else (s, [])

/-! ## Waits -/

/-- Does a condition hold now (R103)? -/
def conditionHolds (s : State) (c : Condition) : Bool :=
  match c with
  | .voice z => (s.voice z).state == .idle
  | .axis n => (s.axis n).owner == .nobody
  | .input i level => (s.input i).debounced == level

/-- The steps of a slot are taken when it is RUNNING. -/
def runTasksOf (s : State) (k : Fin 8) : List Task := if (s.slot k).state = .running then [.takeSteps k none] else []

/-- A waiting slot evaluates its condition (R104). -/
def wakeSlot (s : State) (k : Fin 8) : Effect :=
  match (s.slot k).wait with
  | none => (s, [])
  | some w =>
    if s.conditionHolds w.condition then (s.setSlot k { s.slot k with wait := none }, s.runTasksOf k) else (s, [])

/-- A wait's timeout runs out (R104). -/
def timeOutWait (s : State) (k : Fin 8) (w : Wait) : Effect :=
  let t := s.setSlot k { s.slot k with wait := none }
  if w.stops then (t, [.stopSlot k .waitTimeout])
  else (t.log .waitTimeout (s.slotDetail k ++ [(s.slot k).next - 1]), s.runTasksOf k)

/-! ## Checks of a step: one for each clause between semicolons of its row (R99) -/

def lampHolds (s : State) (scene : SceneRecord) (t : Step) : List Bool :=
  [t.firstChannel ≤ 127, 1 ≤ t.channelCount && t.channelCount ≤ 32, t.firstChannel + t.channelCount ≤ 128,
    t.level ≤ 1000, t.fade ≤ 60000,
    (fins 128).all fun c =>
      !(t.firstChannel ≤ c.val && c.val < t.firstChannel + t.channelCount) ||
        (match (s.channel c).zone with
         | none => false
         | some z => scene.hasZone z.val)]

def groupCount (s : State) : Nat :=
  match s.dir.taken with
  | none => 0
  | some d => d.clipGroups

def narrateHolds (s : State) (scene : SceneRecord) (t : Step) : List Bool :=
  [scene.hasZone t.subject, t.group < s.groupCount]

/-- Is a number an enabled axis whose zone is in the scene's zone set? -/
def axisInScene (s : State) (scene : SceneRecord) (x : Nat) : Bool :=
  match numbered 12 x with
  | none => false
  | some n => (s.axisRecord n).isEnabled && scene.hasZone (s.axisRecord n).zone

def moveHolds (s : State) (scene : SceneRecord) (t : Step) : List Bool :=
  [s.axisInScene scene t.subject,
    match numbered 12 t.subject with
    | none => false
    | some n => (s.axisRecord n).travelMin ≤ t.position && t.position ≤ (s.axisRecord n).travelMax]

/-- The checks of a WAIT step, in the order R99 names them: the condition, VOICE, AXIS, INPUT, timeout, on-timeout. -/
def waitHolds (s : State) (scene : SceneRecord) (t : Step) : List Bool :=
  [t.conditionCode ≤ 2, t.conditionCode != 0 || scene.hasZone t.subject, t.conditionCode != 1 || s.axisInScene scene t.subject,
    t.conditionCode != 2 ||
      (match numbered 24 t.subject with
       | none => false
       | some i => (s.inputRecord i).kind != 0 && t.levelCode ≤ 1),
    t.timeout ≤ 600000, t.onTimeout ≤ 1]

/-- A kind's own checks. -/
def ownChecks (s : State) (scene : SceneRecord) (index : Nat) (t : Step) : StepKind → List Bool
  | .lamp => s.lampHolds scene t
  | .narrate => s.narrateHolds scene t
  | .move => s.moveHolds scene t
  | .wait => s.waitHolds scene t
  | .mark | .finish => []
  | .loop => [t.loopTarget < index, t.loopCount ≤ 65535]

/-- The place of the first check a step fails: 0 the kind, 1 the offset, then the kind's own from 2 on (12.4). -/
def failingCheck (s : State) (scene : SceneRecord) (index : Nat) (t : Step) : Option Nat :=
  match t.kind with
  | none => some 0
  | some kind =>
    let checks := [true, decide (t.offset ≤ Config.clockEnd)] ++ s.ownChecks scene index t kind
    if checks.all id then none else some (checks.takeWhile id).length

/-! ## Steps -/

/-- The jump of a LOOP step (R107). -/
def jump (s : State) (k : Fin 8) (t : Step) : State :=
  (s.dropFetch k).setSlot k
    { s.slot k with next := t.loopTarget, fetch := t.loopTarget, buffer := [],
                    clock := min Config.clockEnd t.targetOffset }

/-- The loop record a LOOP step of a count above 0 sets or reduces (R106). A restored count of 0 reduced stays 0 (log 38). -/
def loopAfter (x : Slot) (index : Nat) (t : Step) : LoopRecord :=
  match x.loop with
  | none => ⟨index, t.loopCount - 1⟩
  | some l => if l.index = index then ⟨index, l.remaining - 1⟩ else ⟨index, t.loopCount - 1⟩

/-- A LOOP step (R106, R107). -/
def takeLoop (s : State) (k : Fin 8) (index : Nat) (t : Step) : Effect :=
  if t.loopCount = 0 then (s.jump k t, [])
  else
    let l := loopAfter (s.slot k) index t
    if 0 < l.remaining then ((s.setSlot k { s.slot k with loop := some l }).jump k t, [])
    else (s.setSlot k { s.slot k with loop := none }, [.takeSteps k none])

/-- A WAIT step (R103). -/
def takeWait (s : State) (k : Fin 8) (t : Step) : Effect :=
  match t.condition with
  | none => (s, [])
  | some c =>
    if s.conditionHolds c then (s, [.takeSteps k none])
    else
      let w : Wait := ⟨c, if t.timeout = 0 then none else some t.timeout, t.onTimeout == 1⟩
      (s.setSlot k { s.slot k with wait := some w }, [])

/-- A MOVE step (R102). -/
def takeMove (s : State) (k : Fin 8) (t : Step) : Effect :=
  match numbered 12 t.subject with
  | none => (s, [])
  | some n =>
    let e := s.startMove k n t.position
    (e.1, e.2 ++ [.takeSteps k none])

/-- A NARRATE step (R101). -/
def takeNarrate (s : State) (k : Fin 8) (t : Step) : Effect :=
  match numbered 8 t.subject with
  | none => (s, [])
  | some v => (s.startNarration k v t.group, [.takeSteps k none])

/-- A LAMP step (R100). -/
def takeLamp (s : State) (k : Fin 8) (t : Step) : Effect :=
  (s.lightChannels k t.firstChannel t.channelCount t.level t.fade, [.takeSteps k none])

/-- A MARK step (R105). -/
def takeMark (s : State) (k : Fin 8) (index : Nat) (t : Step) : Effect :=
  match (s.slot k).holding with
  | none => (s, [])
  | some h => (s.produce (.stepMark h.scene k index t.value), [.takeSteps k none])

/-- The action of a step that passed its checks (6.4); the slot then goes on to its next step (R98). -/
def act (s : State) (k : Fin 8) (index : Nat) (t : Step) : Effect :=
  match t.kind with
  | none => (s, [])
  | some .lamp => s.takeLamp k t
  | some .narrate => s.takeNarrate k t
  | some .move => s.takeMove k t
  | some .wait => s.takeWait k t
  | some .mark => s.takeMark k index t
  | some .loop => s.takeLoop k index t
  | some .finish => (s, [.stopSlot k .completed])

/-- The lateness of a step taken in the event of its own line's arrival, when it is reported (R98, log 29). -/
def lateness (x : Slot) (t : Step) (arrived : Option Nat) : Option Nat :=
  if arrived = some x.next ∧ Config.lateAllowed < x.clock - t.offset then some (x.clock - t.offset) else none

/-- One step is taken (R98, R99). STEP LATE is logged before the step's own fault or record (log 50). -/
def takeStep (s : State) (k : Fin 8) (t : Step) (rest : List Step) (arrived : Option Nat) : Effect :=
  let x := s.slot k
  let taken := s.setSlot k { x with buffer := rest, next := x.next + 1 }
  let told := match lateness x t arrived with
    | none => taken
    | some l => taken.log .stepLate (s.slotDetail k ++ [x.next, l])
  match s.failingCheck (s.slotScene k) x.next t with
  | some check => (told.log .scriptFault (s.slotDetail k ++ [x.next, check]), [.stopSlot k .scriptFault])
  | none => told.act k x.next t

/-- May the slot take steps: is it RUNNING without a wait? -/
def takesSteps (s : State) (k : Fin 8) : Bool := (s.slot k).state == .running && (s.slot k).wait.isNone

/-- Has the slot no step left to take (R98)? -/
def hasRunOut (s : State) (k : Fin 8) : Bool := (s.slotScene k).steps ≤ (s.slot k).next

/-- The run of due steps, one step a task (R98). A step whose offset is above the clock's end is never due (log 37). -/
def takeSteps (s : State) (k : Fin 8) (arrived : Option Nat) : Effect :=
  if s.takesSteps k then
    if s.hasRunOut k then (s, [.stopSlot k .completed])
    else
      match (s.slot k).buffer with
      | [] => (s, [])
      | t :: rest => if t.offset ≤ (s.slot k).clock then s.takeStep k t rest arrived else (s, [])
  else (s, [])

/-! ## Loading -/

/-- The step a fetch reads lies at this address (R94). -/
def stepAddress (s : State) (k : Fin 8) (f : Nat) : Nat := (s.slotScene k).script + 16 * f

/-- The steps of a script line from step `f` on, to the end of the line or of the script (R94). -/
def stepsOfLine (s : State) (k : Fin 8) (line : List Byte) : List Step :=
  let f := (s.slot k).fetch
  let place := s.stepAddress k f % 64 / 16
  (fins 4).filterMap fun i =>
    if i.val < 4 - place ∧ f + i.val < (s.slotScene k).steps then some ⟨slice line (16 * (place + i.val)) 16⟩ else none

/-- A script line arrives (R94): it may end the load, and steps now due are taken. -/
def enterLine (s : State) (k : Fin 8) (line : List Byte) : Effect :=
  let x := s.slot k
  let steps := s.stepsOfLine k line
  (s.setSlot k
    { x with buffer := x.buffer ++ steps, fetch := x.fetch + steps.length,
             lines := if x.state = .loading then min 2 (x.lines + 1) else x.lines },
    [.endLoad k (some x.fetch), .takeSteps k (some x.fetch)])

/-- A load ends when it is complete (R95, R115): HELD in HOLD (R113), with its fades frozen (R124). -/
def endLoad (s : State) (k : Fin 8) (arrived : Option Nat) : Effect :=
  let x := s.slot k
  if x.state = .loading && (2 ≤ x.lines || (s.slotScene k).steps ≤ x.fetch) then
    let y : Slot := { x with clock := x.savedClock.getD 0, savedClock := none }
    if s.ctl.state = .hold then ((s.setSlot k { y with state := .held }).freezeFades k, [])
    else (s.setSlot k { y with state := .running }, [.takeSteps k arrived])
  else (s, [])

/-- A script read fails (R96). -/
def failFetch (s : State) (k : Fin 8) (live : Bool) (addr : Nat) : Effect :=
  if live then (s.log .scriptReadFailed (s.slotDetail k ++ [addr]), [.stopSlot k .scriptReadFailed])
  else (s.log .scriptReadFailed [k.val, addr], [])

/-! ## HOLD -/

/-- Entry to HOLD: every RUNNING slot becomes HELD and its channels' fades are frozen (R113, R124). -/
def holdSlots (s : State) : State :=
  (fins 8).foldl (fun t k =>
    if (t.slot k).state = .running then (t.setSlot k { t.slot k with state := .held }).freezeFades k else t) s

/-- Leaving HOLD: every HELD slot becomes RUNNING and takes its due steps (R113, log 13). -/
def releaseSlots (s : State) : Effect :=
  ((fins 8).foldl (fun t k =>
    if (t.slot k).state = .held then (t.setSlot k { t.slot k with state := .running }).thawFades k else t) s,
    ((fins 8).filter fun k => (s.slot k).state == .held).map fun k => .takeSteps k none)

/-! ## Restored slots -/

/-- May the scene's zones be claimed for a restore (R63)? -/
def mayRestoreClaim (s : State) (scene : Fin 32) : Bool := (s.sceneRecord scene).zones.all fun z => (s.zone z).isFree

/-- A slot starts from a saved entry (R115). -/
def restoreSlot (s : State) (k : Fin 8) (scene : Fin 32) (saved : SavedSlot) : State :=
  ((s.claim k scene).setSlot k
    { s.occupied scene with next := saved.next, fetch := saved.next, loop := saved.loop, savedClock := some saved.clock }).setPin
    (slotPlace k) (some (s.scriptPin scene))

/-- Stop of a restored slot whose saved entry is invalid (R115, log 16). -/
def faultRestored (s : State) (k : Fin 8) : Effect :=
  (s.log .scriptFault [(s.slot k).next], [.stopSlot k .scriptFault])

end State

end Sys2Proof.Machine
end

