-- ==== Sys2Proof/Machine/Arbiter.lean ====
section
/-! DEFINITION. The disposition of the forwarded transaction (R6 to R14, R168), the requests each block raises, and the Port
Arbiter's grant (R20 to R22). -/

namespace Sys2Proof.Machine

/-! ## Disposition -/

/-- A disposition (R6). `source` and `which` are the refusal's (R13, 12.4). -/
inductive Disposal where
  | pass
  | fill
  | malformed
  | refuse (source which : Nat)
  deriving DecidableEq, Repr

/-- Is a transaction malformed (R7)? -/
def Transaction.isMalformed (t : Transaction) (memory : Nat) : Bool :=
  t.length == 0 || 64 < t.length || 64 < t.addr.toNat % 64 + t.length || memory ≤ t.addr.toNat

/-- The lowest place of a list of extents that a transaction touches. -/
def firstTouched (t : Transaction) (es : List Extent) : Option Nat :=
  es.findIdx? fun e => e.touches t.addr.toNat t.length

def Pin.touches (p : Pin) (t : Transaction) : Bool :=
  p.first.touches t.addr.toNat t.length ||
    (match p.second with
     | none => false
     | some e => e.touches t.addr.toNat t.length)

def Looker.purpose : Looker → Purpose
  | .directory => .directory
  | .cueLine => .cueLine
  | .clipGroup v => .clipGroup v
  | .restore => .restore

namespace State

/-- The lowest-numbered place whose pin a write overlaps (R168). -/
def pinTouched (s : State) (t : Transaction) : Option (Fin 16) :=
  (fins 16).find? fun i =>
    match s.pins.get i with
    | none => false
    | some p => p.touches t

/-- Step 2 (R8). -/
def directoryDisposal (s : State) (t : Transaction) : Disposal :=
  match t.kind with
  | .read => .pass
  | .write =>
    if s.dir.locked || t.cls == .showClass then .refuse 0 0
    else
      match s.pinTouched t with
      | some i => .refuse 2 i.val
      | none => .pass

/-- The window that decides a transaction, if one covers it (R11). -/
def deciding (s : State) (t : Transaction) : Option (Fin 12) :=
  (fins 12).find? fun w =>
    let r := s.disp.windows.get w
    r.kind != 0 && r.base ≤ t.addr.toNat && t.addr.toNat < r.limit

/-- Steps 5 and 6 (R11, R12); window kinds: OPEN 1, SERVICE-ONLY 2, SHOW-READ-ONLY 3. -/
def windowDisposal (s : State) (t : Transaction) : Disposal :=
  match s.deciding t with
  | none => .pass
  | some w =>
    match t.cls, (s.disp.windows.get w).kind, t.kind with
    | .serviceClass, _, _ => .pass
    | .showClass, 2, .read => .fill
    | .showClass, 2, .write => .refuse 3 w.val
    | .showClass, 3, .write => .refuse 3 w.val
    | .showClass, _, _ => .pass

/-- Step 3: the part-written area a write touches, if it touches one (R9). -/
def areaTouched (s : State) (t : Transaction) : Option Nat :=
  match s.dir.taken with
  | none => none
  | some d => firstTouched t d.writtenAreas

/-- Steps 3 to 6 (R9 to R12). -/
def outerDisposal (s : State) (t : Transaction) : Disposal :=
  match t.kind with
  | .read => s.windowDisposal t
  | .write =>
    match s.areaTouched t with
    | some area => .refuse 1 area
    | none =>
      match s.pinTouched t with
      | some i => .refuse 2 i.val
      | none => s.windowDisposal t

/-- The disposition of the forwarded transaction (R6). -/
def disposal (s : State) (t : Transaction) : Disposal :=
  if t.isMalformed s.memorySize then .malformed
  else if t.addr.toNat < 0x1000 then s.directoryDisposal t
  else s.outerDisposal t

/-- The response to the forwarded transaction goes back, and the port takes the next (R1, R3). -/
def respond (s : State) (r : Response) : State := { s with up := ⟨none, some r⟩ }

/-- Does a write cover a byte of a word (R17)? -/
def covers (addr length word : Nat) : Bool := addr < word + 4 && word < addr + length

/-- A reload request made while locked, by a write that the lock refused (R8). -/
def lockedReload (s : State) (t : Transaction) : State :=
  if s.dir.locked && t.addr.toNat < 0x1000 && covers t.addr.toNat t.length 0xFFC then s.ignoreReload else s

/-- The forwarded transaction is granted and disposed of (R6, R12 to R14). A refusal by the lock logs LINK WRITE REFUSED
before the reload request of the same write is ignored (R8, log 44). -/
def grantForwarded (s : State) (t : Transaction) : State :=
  let u := { s with arb := { s.arb with forwarded := false, forwardedWait := 0 } }
  match s.disposal t with
  | .pass => { u with port := some ⟨.forwarded, t.kind, t.addr.toNat, t.length, t.data, true⟩ }
  | .fill => u.respond (.data (zeros t.length))
  | .malformed => (u.respond .refused).log .malformed [t.addr.toNat, classCode t.cls, t.kind.code]
  | .refuse source which =>
    let v := (u.respond .refused).log .writeRefused [t.addr.toNat, classCode t.cls, source, which]
    if source = 0 then v.lockedReload t else v

/-! ## Requests raised -/

def lookupWaits (s : State) (who : Looker) : Bool := s.arb.lookups.any fun l => l.who == who

def writeWaits (s : State) (who : Writer) : Bool := s.arb.writebacks.contains who

def addLookup (s : State) (who : Looker) (addr : Nat) : State :=
  { s with arb := { s.arb with lookups := s.arb.lookups ++ [⟨who, addr⟩] } }

def addWrite (s : State) (who : Writer) : State :=
  { s with arb := { s.arb with writebacks := s.arb.writebacks ++ [who] } }

/-- The line the Cue Unit reads next: the line of slot F mod N (R41). -/
def cueLineAddress (s : State) (d : Directory) : Nat := d.cueBase + 64 + 64 * (s.cue.fetched.toNat % d.cueSlots / 2)

/-- The directory line due (R25). -/
def directoryWant (s : State) : Option Nat :=
  match s.dir.load with
  | .idle => none
  | .loading n => if s.lookupWaits .directory || s.carries Purpose.isDirectory then none else some (64 * n)

/-- How many slots the accepted producer count P is ahead of the fetched count F (R41). P - C above the slot count says
that the consumer count has passed a lowered P: P is then behind F, until a new P passes F (R40, log 43). -/
def producedAhead (s : State) (slots : Nat) : Nat :=
  let produced := (s.cue.accepted - s.cue.consumer).toNat
  if produced ≤ slots then produced - (s.cue.fetched - s.cue.consumer).toNat else 0

/-- The cue line due (R41; log 43 for a P that C has passed). -/
def cueWant (s : State) : Option Nat :=
  match s.dir.taken with
  | none => none
  | some d =>
    if s.lookupWaits .cueLine || s.carries Purpose.isCueLine then none
    else if 0 < s.producedAhead d.cueSlots ∧ s.cue.queue.length < Config.cueQueueSize then some (s.cueLineAddress d)
    else none

/-- The clip group record a voice in LOOKUP reads (R130, R133). -/
def groupWant (s : State) (v : Fin 8) : Option Nat :=
  match s.dir.taken, (s.voice v).group with
  | some d, some g =>
    if (s.voice v).state = .lookup ∧ ¬ s.lookupWaits (.clipGroup v) ∧ ¬ s.carriesLive (Purpose.isClipGroup v) then
      some (d.groupAddress g)
    else none
  | _, _ => none

/-- The snapshot line the restore reader reads: the marker line 15, then lines 0 to 14 (R186). -/
def restoreWant (s : State) : Option Nat :=
  match s.dir.taken, s.ctl.restore with
  | some d, some r =>
    if s.lookupWaits .restore || s.carries Purpose.isRestore then none else some (d.snapshotArea + 64 * r.line.getD 15)
  | _, _ => none

/-- The clip line a voice reads (R136). -/
def clipWant (s : State) (v : Fin 8) : Option ReadRequest :=
  let x := s.voice v
  match x.clip with
  | none => none
  | some c =>
    if x.state.fetches ∧ s.arb.voice.get v = none ∧ ¬ s.carriesLive (Purpose.isClipLine v) ∧ x.fetchPos < c.length ∧
        x.buffer.length + 64 ≤ Config.voiceBufferSize then some (c.readFrom x.fetchPos)
    else none

/-- The script line a slot reads (R94). -/
def scriptWant (s : State) (k : Fin 8) : Option ReadRequest :=
  let x := s.slot k
  if x.state.isRunning ∧ s.arb.script.get k = none ∧ ¬ s.carriesLive (Purpose.isScript k) ∧
      x.fetch < (s.slotScene k).steps ∧ x.buffer.length + 4 ≤ Config.stepBufferSize then
    let a := s.stepAddress k x.fetch
    some ⟨a - a % 64, 64⟩
  else none

/-- Is the head record to be written (R51)? -/
def recordDue (s : State) : Bool :=
  match s.dir.taken with
  | none => false
  | some d =>
    !s.report.queue.isEmpty && !s.writeWaits .record && !s.carries Purpose.isRecord &&
      (s.report.producer - s.report.consumer).toNat < d.reportSlots

/-- Is the producer word to be written (R52)? -/
def producerDue (s : State) : Bool :=
  s.dir.taken.isSome && s.report.writePending && !s.writeWaits .producer && !s.carries Purpose.isProducer

/-- Is the consumer word to be written (R47)? -/
def consumerDue (s : State) : Bool :=
  s.dir.taken.isSome && s.cue.writePending && !s.writeWaits .consumer && !s.carries Purpose.isConsumer

/-- Does a Fault Page pass begin (R183)? -/
def pageBegins (s : State) : Bool :=
  s.dir.taken.isSome && s.fault.dirty && s.fault.writer.isNone && !s.carries Purpose.isPage

/-- Is a Fault Page line to be written (R183)? -/
def pageDue (s : State) : Bool :=
  s.dir.taken.isSome && s.fault.writer.isSome && !s.writeWaits .page && !s.carries Purpose.isPage

/-- Is a snapshot line to be written (R185)? -/
def snapshotDue (s : State) : Bool :=
  s.dir.taken.isSome && s.ctl.snapshot.isSome && s.ctl.restore.isNone && !s.writeWaits .snapshot &&
    !s.carries Purpose.isSnapshot

/-- A request joins the LOOKUP order if its requester wants one. -/
def raiseLookup (s : State) (who : Looker) (want : Option Nat) : State :=
  match want with
  | none => s
  | some a => s.addLookup who a

def raiseWrite (s : State) (who : Writer) (due : Bool) : State := if due then s.addWrite who else s

/-- The LOOKUP requesters in the order 1.6 lists them. -/
def raiseLookups (s : State) : State :=
  let a := s.raiseLookup .directory s.directoryWant
  let b := a.raiseLookup .cueLine a.cueWant
  let c := (fins 8).foldl (fun t v => t.raiseLookup (.clipGroup v) (t.groupWant v)) b
  c.raiseLookup .restore c.restoreWant

/-- A Fault Page pass begins when one is due (R183). -/
def beginPage (s : State) : State :=
  if s.pageBegins then { s with fault := { s.fault with dirty := false, writer := some 0 } } else s

/-- The WRITEBACK requesters in the order 1.6 lists them. -/
def raiseWrites (s : State) : State :=
  let a := s.raiseWrite .record s.recordDue
  let b := a.raiseWrite .producer a.producerDue
  let c := b.raiseWrite .consumer b.consumerDue
  let d := c.beginPage.raiseWrite .page c.beginPage.pageDue
  d.raiseWrite .snapshot d.snapshotDue

/-- Voices and slots raise their reads (R136, R94). -/
def raiseReads (s : State) : State :=
  { s with arb := { s.arb with
      voice := tabulate fun v => (s.arb.voice.get v).or (s.clipWant v)
      script := tabulate fun k => (s.arb.script.get k).or (s.scriptWant k) } }

/-- Every request due is raised (R21). -/
def raiseAll (s : State) : State := s.raiseLookups.raiseReads.raiseWrites

/-! ## Grants -/

/-- Is a voice's request urgent (R21, 2)? -/
def isUrgent (s : State) (v : Fin 8) : Bool :=
  (s.arb.voice.get v).isSome && (s.voice v).buffer.length < Config.urgentBelow &&
    (s.voice v).fetchPos < (s.voice v).playedLength

/-- The eight numbers going round, beginning after a pointer. -/
def after (p : Fin 8) : List (Fin 8) := (fins 8).map fun i => p + 1 + i

/-- The data of a WRITEBACK at its grant: purpose, address, bytes (R47, R51, R52, R183, R185). -/
def writeOf (s : State) (d : Directory) : Writer → Purpose × Nat × List Byte
  | .record =>
    (.record s.report.lost, ringSlot d.reportBase d.reportSlots s.report.producer,
      match s.report.queue with
      | [] => zeros 32
      | r :: _ => r.bytes s.report.lost)
  | .producer => (.producer s.report.producer, d.reportBase, indexWord s.report.producer)
  | .consumer => (.consumer s.cue.consumer, d.cueBase + 4, indexWord s.cue.consumer)
  | .page =>
    let line := s.fault.writer.getD 0
    (.page, d.faultPage + 64 * line, faultPageLine s.fault.banks s.dir.sequence line)
  | .snapshot =>
    match s.ctl.snapshot with
    | none => (.snapshot, d.snapshotArea, zeros 64)
    | some w =>
      if w.due = 0 then (.snapshot, d.snapshotArea + 0x3C0, markerLine none)
      else if w.due ≤ 15 then
        (.snapshot, d.snapshotArea + 64 * (w.due - 1), padTo 64 (slice w.image (64 * (w.due - 1)) 64))
      else (.snapshot, d.snapshotArea + 0x3C0, markerLine (some w.sequence))

/-- A read goes out on the Memory Port. -/
def carryRead (s : State) (p : Purpose) (r : ReadRequest) : State :=
  { s with port := some ⟨p, .read, r.addr, r.length, [], true⟩ }

def carryWrite (s : State) (w : Purpose × Nat × List Byte) : State :=
  { s with port := some ⟨w.1, .write, w.2.1, w.2.2.length, w.2.2, true⟩ }

/-- A grant to another requester while the forwarded transaction waits (R22). -/
def countWait (s : State) : State :=
  if s.arb.forwarded then
    { s with arb := { s.arb with forwardedWait := min Config.forwardedBound (s.arb.forwardedWait + 1) } }
  else s

def grantVoice (s : State) (v : Fin 8) (r : ReadRequest) : State :=
  ({ s with arb := { s.arb with voice := put s.arb.voice v none, voicePtr := v } }.carryRead (.clipLine v) r).countWait

def grantScript (s : State) (k : Fin 8) (r : ReadRequest) : State :=
  ({ s with arb := { s.arb with script := put s.arb.script k none, slotPtr := k } }.carryRead (.script k) r).countWait

def grantLookup (s : State) (l : Lookup) (rest : List Lookup) : State :=
  ({ s with arb := { s.arb with lookups := rest } }.carryRead l.who.purpose ⟨l.addr, 64⟩).countWait

def grantWrite (s : State) (w : Writer) (rest : List Writer) : State :=
  match s.dir.taken with
  | none => s
  | some d => ({ s with arb := { s.arb with writebacks := rest } }.carryWrite (s.writeOf d w)).countWait

/-- The first of a list of numbers whose request waits, with the request. -/
def firstWaiting (requests : Vector (Option ReadRequest) 8) (order : List (Fin 8)) : Option (Fin 8 × ReadRequest) :=
  order.findSome? fun i => (requests.get i).map fun r => (i, r)

/-- The grant of one class, if it has a request (R21, 4). -/
def grantClass (s : State) (c : RobinClass) : Option State :=
  match c with
  | .voice => (firstWaiting s.arb.voice (after s.arb.voicePtr)).map fun x => s.grantVoice x.1 x.2
  | .script => (firstWaiting s.arb.script (after s.arb.slotPtr)).map fun x => s.grantScript x.1 x.2
  | .lookup =>
    match s.arb.lookups with
    | [] => none
    | l :: rest => some (s.grantLookup l rest)
  | .writeback =>
    match s.arb.writebacks with
    | [] => none
    | w :: rest => some (s.grantWrite w rest)

/-- The classes in cyclic order, beginning after a class. -/
def classesAfter : RobinClass → List RobinClass
  | .voice => [.script, .lookup, .writeback, .voice]
  | .script => [.lookup, .writeback, .voice, .script]
  | .lookup => [.writeback, .voice, .script, .lookup]
  | .writeback => [.voice, .script, .lookup, .writeback]

/-- Rule 4 (R21): the class pointer becomes the class granted. -/
def grantRobin (s : State) : State :=
  ((classesAfter s.arb.classPtr).findSome? fun c =>
    (s.grantClass c).map fun t => { t with arb := { t.arb with classPtr := c } }).getD s

/-- The urgent refill rule 2 grants (R21). -/
def urgentVoice (s : State) : Option (Fin 8 × ReadRequest) :=
  firstWaiting s.arb.voice ((after s.arb.voicePtr).filter s.isUrgent)

/-- The grant of the forwarded transaction, if it waits. -/
def forwardedGrant (s : State) : Option State :=
  if s.arb.forwarded then s.up.held.map s.grantForwarded else none

/-- One grant, when the Memory Port is free (R21). -/
def grant (s : State) : State :=
  if s.port.isSome then s
  else
    let first := if s.arb.forwardedWait = Config.forwardedBound then s.forwardedGrant else none
    match first, s.urgentVoice with
    | some t, _ => t
    | none, some (v, r) => s.grantVoice v r
    | none, none => s.forwardedGrant.getD s.grantRobin

/-- Requests are raised and one is granted; a refused or filled forwarded transaction leaves the port free, and the
Arbiter grants again (R21). What the refusal itself raises joins the orders behind what was raised before the first grant
(log 33). -/
def arbitrate (s : State) : State := s.raiseAll.grant.raiseAll.grant

end State

end Sys2Proof.Machine
end

