-- ==== Sys2Proof/Machine/Agenda.lean ====
section
/-! DEFINITION. How an event runs: its tasks one after another, each whole before the next and what a task asks for before
what was asked for earlier (00, How behaviour is stated), then the Port Arbiter (R21) and the attention output (R55). -/

namespace Sys2Proof.Machine

/-- One task carried out. -/
def perform (t : Task) (s : State) : Effect :=
  match t with
  | .stopSlot k reason => s.stopSlot k reason
  | .testWound k => s.testWound k
  | .takeSteps k arrived => s.takeSteps k arrived
  | .wakeSlot k => s.wakeSlot k
  | .endLoad k arrived => s.endLoad k arrived
  | .restart k => s.restart k
  | .faultRestored k => s.faultRestored k
  | .releaseSlots => s.releaseSlots
  | .cutVoice v => s.cutVoice v
  | .sampleVoice v => s.sampleVoice v
  | .idleVoice v => s.idleVoice v
  | .resumeVoices => (s.resumeVoices, [])
  | .haltAxis n => s.haltAxis n
  | .endHalt n => s.endHalt n
  | .giveUpAxis n => s.giveUpAxis n
  | .arrive n => s.arrive n
  | .findHome n => s.findHome n
  | .addReason n r => s.addReason n r
  | .removeReason n r => s.removeReason n r
  | .homeByCue n => s.homeByCue n
  | .endHoming => s.resumeScans
  | .stallAtTake n => s.stallAtTake n
  | .stopStalled n => s.stopStalled n
  | .safeAxis n => s.safeAxis n
  | .clearHold => (s.clearHold, [])
  | .giveUpChannel c => s.giveUpChannel c
  | .safeChannel c => s.safeChannel c
  | .askScan => s.askScan
  | .judgePreempting scene => s.judgePreempting scene
  | .waitingPhase => s.waitingPhase
  | .judgeWaiting scene => s.judgeWaiting scene
  | .endScan => s.endScan
  | .reRequest => s.reRequest
  | .autoRequest scene => s.autoRequest scene
  | .dropAll reason => (s.dropAll reason, [])
  | .quietTest => (s.testQuiet, [])
  | .safeTrigger => s.takeTrigger
  | .leaveStart taken => s.leaveStart taken
  | .startSnapshot reason => (s.startSnapshot reason, [])

/-- The tasks of an event, each with all it asks for before the next. -/
def runTasks : Nat → List Task → State → State
  | 0, _, s => s
  | _, [], s => s
  | fuel + 1, t :: ts, s => runTasks fuel ((perform t s).2 ++ ts) (perform t s).1

/-- The attention output follows its condition (R55). -/
def State.attend (s : State) : State := { s with report := { s.report with attention := s.wantsAttention } }

/-- The end of every event: the requests due are raised and granted, and the attention output follows. -/
def State.settle (s : State) : State := s.arbitrate.attend

/-- The whole of an event that begins with an effect. -/
def conclude (e : Effect) : State := (runTasks Config.agendaFuel e.2 e.1).settle

/-- A command whose event has come about has its effect; another leaves the part as it is (log 1). While RESET is low
nothing acts (R5, R23, log 3). -/
def react (s : State) (due : Bool) (e : Effect) : Answer :=
  if !s.resetLow && due then .next (conclude e) else .next s

/-- Memory's answer to the transaction in flight, of the kind a command names (R4). -/
def onAnswer (s : State) (named : InFlight → Bool) (effect : InFlight → Effect) : Answer :=
  match s.port with
  | none => .next s
  | some f => react s (named f) (effect f)

/-- An input line moves to a level; a command that names the level it has is no event (log 1). While RESET is low only the
level is followed (log 3). `moved` is the part with the line at its new level. -/
def onLine (s : State) (changed : Bool) (moved : State) (e : Effect) : Answer :=
  if !changed then .next s else if s.resetLow then .next moved else .next (conclude e)

end Sys2Proof.Machine
end

