-- ==== Sys2Proof/Machine/Due.lean ====
section
/-! DEFINITION. The events the part's own clock and its own queues bring about, and when each is due (log 2). -/

namespace Sys2Proof.Machine.State

/-- Has a deadline been reached? -/
def due (s : State) (deadline : Option Time) : Bool :=
  match deadline with
  | none => false
  | some d => reached d s.showTime

/-- Does a cue of a kind stand at the head of the Cue Queue, the show not in START (R44)? -/
def cueDue (s : State) (kind : Option CueKind) : Bool :=
  s.ctl.state != .start &&
    (match s.cue.queue with
     | .cue _ code _ _ :: _ => CueKind.ofByte code == kind
     | _ => false)

/-- Does a failed entry stand at the head (R44)? -/
def failedDue (s : State) : Bool :=
  s.ctl.state != .start &&
    (match s.cue.queue with
     | .failed _ :: _ => true
     | _ => false)

/-- Has a WAITING request run out of time (R86)? One whose wait reached 0 in the ms HOLD was entered has, in HOLD too
(log 53). -/
def expires (s : State) (scene : Fin 32) : Bool :=
  match s.queuedRequest scene with
  | none => false
  | some r => r.state == .waiting && !r.single && r.remaining == 0

/-- Is the next step of a slot due and in the buffer, and of a kind (R98)? -/
def stepDue (s : State) (k : Fin 8) (kind : Option StepKind) : Bool :=
  s.takesSteps k && !s.hasRunOut k &&
    (match (s.slot k).buffer with
     | [] => false
     | t :: _ => t.offset ≤ (s.slot k).clock && t.kind == kind)

/-- Has a wait's timeout run out (R104)? One that reached 0 in the ms HOLD was entered has, in HELD too (log 52). -/
def waitOver (s : State) (k : Fin 8) : Bool :=
  ((s.slot k).state == .running || (s.slot k).state == .held) &&
    (match (s.slot k).wait with
     | none => false
     | some w => w.remaining == some 0)

/-- Does a part of the profile end at the present ms, the axis being MOVING (R149)? -/
def partOver (s : State) (n : Fin 12) (p : AxisRecord → Axis → Run → Bool) : Bool :=
  let a := s.axis n
  let rec' := s.axisRecord n
  match a.state, a.run with
  | .moving, some r => r.over rec' a.direction a.aim a.profileMs && p rec' a r
  | _, _ => false

/-- Does the ramp end at the maximum speed here? -/
def reachesTop (rec' : AxisRecord) (a : Axis) (r : Run) : Bool :=
  r.kind == .speedingUp && reachesMaximum rec' r a.direction a.aim

/-- Does the axis begin to slow to its target here? -/
def beginsSlowing (rec' : AxisRecord) (a : Axis) (r : Run) : Bool :=
  r.kind == .constant || (r.kind == .speedingUp && !reachesMaximum rec' r a.direction a.aim)

/-- Does the axis turn back here? -/
def turnsBack (_ : AxisRecord) (_ : Axis) (r : Run) : Bool := r.kind == .turning

/-- Is the event a command names due? It is false of every command that only the outside sends. A limit that an axis's
elapsed time reached in the ms it was suspended is due when it moves or homes again (log 55). -/
def isDue (s : State) : Instr → Bool
  | .sampleInstant => s.sampleCount < Config.samplesPerMs
  | .stepPulse n => (s.axis n).position != (s.axis n).dueAt (s.axisRecord n)
  | .maximumSpeedReached n => s.partOver n reachesTop
  | .beginToSlow n => s.partOver n beginsSlowing
  | .directionReversal n => s.partOver n turnsBack
  | .arrival n => (s.syncedAxis n).hasArrived (s.axisRecord n)
  | .moveTimeout n => (s.axis n).state == .moving && (s.axisRecord n).moveTimeLimit ≤ (s.axis n).elapsed
  | .homeNotFound n => (s.axis n).state == .homing && 4 * (s.axisRecord n).moveTimeLimit ≤ (s.axis n).elapsed
  | .suspendingAtRest n => (s.axis n).state == .suspending && (s.syncedAxis n).atRest (s.axisRecord n)
  | .haltEnds n => (s.axis n).state == .halting && (s.syncedAxis n).atRest (s.axisRecord n)
  | .suspendLimit n =>
    (s.axis n).state == .suspended && 1000 * (s.axisRecord n).suspendLimit ≤ (s.axis n).suspendedFor s.showTime
  | .settleDeadline z => (s.zone z).guard == .settling && s.due (s.zone z).settle
  | .debounceDeadline i => s.due (s.input i).deadline
  | .cooldownDeadline scene => s.due (s.req.cooldown.get scene)
  | .requestExpires scene => s.expires scene
  | .waitTimeout k => s.waitOver k
  | .lampStep k => s.stepDue k (some .lamp)
  | .narrateStep k => s.stepDue k (some .narrate)
  | .moveStep k => s.stepDue k (some .move)
  | .waitStep k => s.stepDue k (some .wait)
  | .markStep k => s.stepDue k (some .mark)
  | .loopStep k => s.stepDue k (some .loop)
  | .endStep k => s.stepDue k (some .finish)
  | .unknownStepKind k => s.stepDue k none
  | .scriptRunsOut k => s.takesSteps k && s.hasRunOut k
  | .cutDeadline v => (s.voice v).state == .stopping && s.due (s.voice v).cutDeadline
  | .lampFrame => s.due s.lamp.nextFrame
  | .requestScene => s.cueDue (some .requestScene)
  | .stopScene => s.cueDue (some .stopScene)
  | .stopAll => s.cueDue (some .stopAll)
  | .closeZone => s.cueDue (some .closeZone)
  | .openZone => s.cueDue (some .openZone)
  | .setLanguage => s.cueDue (some .setLanguage)
  | .setBaseLevel => s.cueDue (some .setBaseLevel)
  | .houseLights => s.cueDue (some .houseLights)
  | .homeAxis => s.cueDue (some .homeAxis)
  | .holdShow => s.cueDue (some .holdShow)
  | .releaseShow => s.cueDue (some .releaseShow)
  | .clearFault => s.cueDue (some .clearFault)
  | .enterSafe => s.cueDue (some .enterSafe)
  | .leaveSafe => s.cueDue (some .leaveSafe)
  | .restoreShow => s.cueDue (some .restoreShow)
  | .mark => s.cueDue (some .mark)
  | .unknownKind => s.cueDue none
  | .failedEntryTake => s.failedDue
  | _ => false

/-- The part's own events, in the order the idle step looks for one that is due: pulses come before the ends of the
parts of the profile they belong to (log 2). -/
def ownEvents : List Instr :=
  List.flatten
    [(fins 12).map .stepPulse, (fins 12).map .maximumSpeedReached, (fins 12).map .beginToSlow,
      (fins 12).map .directionReversal, (fins 12).map .arrival, (fins 12).map .homeNotFound, (fins 12).map .moveTimeout,
      (fins 12).map .suspendingAtRest, (fins 12).map .haltEnds, (fins 12).map .suspendLimit, (fins 8).map .settleDeadline,
      (fins 24).map .debounceDeadline, (fins 32).map .cooldownDeadline, (fins 32).map .requestExpires,
      (fins 8).map .waitTimeout, (fins 8).map .lampStep, (fins 8).map .narrateStep, (fins 8).map .moveStep,
      (fins 8).map .waitStep, (fins 8).map .markStep, (fins 8).map .loopStep, (fins 8).map .endStep,
      (fins 8).map .unknownStepKind, (fins 8).map .scriptRunsOut, (fins 8).map .cutDeadline,
      [.lampFrame, .requestScene, .stopScene, .stopAll, .closeZone, .openZone, .setLanguage, .setBaseLevel, .houseLights,
        .homeAxis, .holdShow, .releaseShow, .clearFault, .enterSafe, .leaveSafe, .restoreShow, .mark, .unknownKind,
        .failedEntryTake, .sampleInstant]]

/-- The first of the part's own events that is due now. -/
def dueCommand (s : State) : Option Instr := if s.resetLow then none else ownEvents.find? s.isDue

end Sys2Proof.Machine.State
end

