-- ==== Sys2Proof/Machine/Clock.lean ====
section
/-! DEFINITION. A ms of show time: what each unit counts with it (log 2). -/

namespace Sys2Proof.Machine

/-- A slot over a ms (R97, R104): its clock, or its wait's timeout, while it is RUNNING. -/
def Slot.ticked (x : Slot) : Slot :=
  if x.state = .running then
    match x.wait with
    | none => { x with clock := min Config.clockEnd (x.clock + 1) }
    | some w => { x with wait := some { w with remaining := w.remaining.map (· - 1) } }
  else x

/-- A request over a ms of RUN (R86). -/
def Request.ticked (r : Request) : Request :=
  if r.state = .waiting then { r with remaining := r.remaining - 1 } else r

/-- An axis over a ms (R147, R149). -/
def Axis.ticked (a : Axis) : Axis :=
  match a.state with
  | .moving => { a with elapsed := a.elapsed + 1, profileMs := a.profileMs + 1 }
  | .homing => { a with elapsed := a.elapsed + 1 }
  | .suspending | .halting => { a with profileMs := a.profileMs + 1 }
  | .unhomed | .idle | .suspended | .faulted => a

namespace State

/-- Request waits fall in RUN alone (R86). -/
def tickedQueue (s : State) : List Request :=
  if s.ctl.state = .run then s.req.queue.map Request.ticked else s.req.queue

/-- A ms of show time; while RESET is low the show time alone goes on (log 3). -/
def tick (s : State) : State :=
  if s.resetLow then { s with showTime := s.showTime + 1 }
  else
    { s with
      showTime := s.showTime + 1
      sampleCount := 0
      slots := tabulate fun k => (s.slots.get k).ticked
      req := { s.req with queue := s.tickedQueue }
      axes := tabulate fun n => (s.axes.get n).ticked }

end State

end Sys2Proof.Machine
end

