-- ==== Sys2Proof/Machine/CueRing.lean ====
section
/-! DEFINITION. The Cue Ring's traffic (R41 to R43, R47, R48). -/

namespace Sys2Proof.Machine

namespace State

/-- How many slots an arrival of the line of slot F mod N enters (R42): one or two, less what P and the queue allow; none
where P has fallen back behind F (log 43). -/
def entriesDue (s : State) (slots : Nat) : Nat :=
  min (2 - s.cue.fetched.toNat % slots % 2) (min (s.producedAhead slots) (Config.cueQueueSize - s.cue.queue.length))

/-- Entries join the Cue Queue and F passes them (R42, R43). -/
def enterCues (s : State) (entries : List CueEntry) : State :=
  { s with cue := { s.cue with queue := s.cue.queue ++ entries,
                               fetched := s.cue.fetched + BitVec.ofNat 16 entries.length } }

/-- The index of the `i`-th slot an arrival enters. -/
def entryIndex (s : State) (i : Nat) : Index := s.cue.fetched + BitVec.ofNat 16 i

def cueSlotCount (s : State) : Nat :=
  match s.dir.taken with
  | none => 0
  | some d => d.cueSlots

/-- The cues a line gives (R42). -/
def cuesOfLine (s : State) (line : List Byte) : List CueEntry :=
  (List.range (s.entriesDue s.cueSlotCount)).map fun i =>
    let index := s.entryIndex i
    cueOfSlot index (slice line (32 * (index.toNat % s.cueSlotCount % 2)) 32)

/-- The failed entries a failed line gives (R43). -/
def failedEntries (s : State) : List CueEntry :=
  (List.range (s.entriesDue s.cueSlotCount)).map fun i => .failed (s.entryIndex i)

end State

/-- CUE_LINE_ARRIVES (R42). -/
def execCueLineArrives (data : List Byte) (s : State) : Answer :=
  onAnswer s (fun f => f.purpose.isCueLine && data.length == f.length) fun f =>
    let t := s.freePort
    (if f.live then t.enterCues (s.cuesOfLine data) else t, [])

/-- CUE_FETCH_FAILED (R43, R48). -/
def execCueFetchFailed (s : State) : Answer :=
  onAnswer s (fun f => f.purpose.isCueLine) fun f =>
    let t := s.freePort.log .cueFetchFailed [f.addr]
    (if f.live then t.enterCues s.failedEntries else t, [])

/-- The index value a consumer or producer write carried. -/
def Purpose.indexValue : Purpose → Index
  | .producer v => v
  | .consumer v => v
  | _ => 0

/-- CONSUMER_WRITE_DONE (R47, R48). -/
def execConsumerWriteDone (s : State) : Answer :=
  onAnswer s (fun f => f.purpose.isConsumer) fun f =>
    let t := s.freePort
    (if f.live && s.cue.consumer == f.purpose.indexValue then { t with cue := { t.cue with writePending := false } }
     else t, [])

/-- CONSUMER_WRITE_FAILED (R47, R16): the write stays pending. -/
def execConsumerWriteFailed (s : State) : Answer :=
  onAnswer s (fun f => f.purpose.isConsumer) fun f =>
    (s.freePort.log .memoryErrorInternal [f.addr, f.purpose.classCode], [])

end Sys2Proof.Machine
end

