-- ==== Sys2Proof/Machine/ShowChanges.lean ====
section
/-! DEFINITION. The changes of the show that reach every block: entry to and leaving of HOLD (R175), the take of a directory
(R31 to R33, R48, R54, R58, R117, R164, R183, R185) and the end of a restore (R187). -/

namespace Sys2Proof.Machine.State

/-- The show enters HOLD (R175), with the snapshot of the reason given (R176, R184). -/
def enterHold (s : State) (reason : SnapshotReason) : Effect :=
  ((s.changeShow .hold).holdSlots.pauseVoices, (s.enabledAxes.map fun n => .addReason n .hold) ++ [.startSnapshot reason])

/-- The show leaves HOLD for RUN: slots first, then voices, axes and, last, the Request Unit (R175). -/
def leaveHold (s : State) : Effect :=
  (s.changeShow .run,
    [.releaseSlots, .resumeVoices] ++ (s.enabledAxes.map fun n => .removeReason n .hold) ++ [.askScan])

/-! ## The take -/

/-- Does a ring restart at a take (R33)? -/
def cueRestarts (s : State) (d : Directory) : Bool :=
  match s.dir.taken with
  | none => true
  | some old => old.cueBase != d.cueBase || old.cueSlots != d.cueSlots

def reportRestarts (s : State) (d : Directory) : Bool :=
  match s.dir.taken with
  | none => true
  | some old => old.reportBase != d.reportBase || old.reportSlots != d.reportSlots

/-- The Cue Unit's values at a restart (R48), with its observed word (R18). -/
def clearCues (s : State) : State := { s with cue := ⟨0, 0, 0, [], true⟩, disp := { s.disp with cueProducer := 0 } }

/-- The Cue Ring restarts (R48, R18). -/
def restartCues (s : State) : State :=
  (((((s.withdrawLookup .cueLine).withdrawWrite .consumer).discard Purpose.isCueLine).discard Purpose.isConsumer).lose
    s.cue.queue.length).clearCues

/-- The Report Unit's values at a restart (R54), with its observed word (R18). -/
def clearReports (s : State) : State :=
  { s with
    report := { s.report with queue := [], producer := 0, consumer := 0, writePending := true }
    disp := { s.disp with reportConsumer := 0 } }

/-- The Report Ring restarts (R54, R18). -/
def restartReports (s : State) : State :=
  (((((s.withdrawWrite .record).withdrawWrite .producer).discard Purpose.isRecord).discard Purpose.isProducer).lose
    s.report.queue.length).clearReports

/-- The Directory Unit and the Disposition Unit at a take (R31, R11). -/
def adopt (s : State) (d : Directory) : State :=
  { s with
    dir := { taken := some d, image := [], load := .idle, locked := s.dir.locked || d.lockOnTake == 1,
             sequence := d.sequence }
    disp := { s.disp with windows := d.windows } }

/-- The Cue Unit at a take: `s` is the part before it (R48). -/
def takeCueRing (s : State) (d : Directory) : State := if s.cueRestarts d then (s.adopt d).restartCues else s.adopt d

/-- The two ring units at a take, the Cue Ring's restart before the Report Ring's (R33, R48, R54). -/
def takeRings (s : State) (d : Directory) : State :=
  if s.reportRestarts d then (s.takeCueRing d).restartReports else s.takeCueRing d

/-- Every block's changes at a take (R32). -/
def takeBlocks (s : State) (d : Directory) : State :=
  ((((s.takeRings d).takeZones d).takeLamps d s.dir.taken.isNone).takeAxes s.axisRecord).restartPage.dropSnapshot

/-- The take of a validated image (R31, R33; the order is log 20's, that of the stalls log 49's). -/
def takeDirectory (s : State) (d : Directory) : Effect :=
  let t := s.takeBlocks d
  (t.produce (.reloadDone d.sequence t.dir.locked (s.cueRestarts d) (s.reportRestarts d)),
    (fins 12).map .stallAtTake ++ [.leaveStart true])

/-- The load image is discarded (R26, R34). -/
def discardImage (s : State) : State := { s with dir := { s.dir with image := [], load := .idle } }

/-- The last line is in: the image is taken or rejected (R27, R34). -/
def judgeImage (s : State) (image : List Byte) : Effect :=
  match firstFailure image with
  | none => s.takeDirectory (directoryOf image)
  | some c => (s.discardImage.log .directoryInvalid [c.word], [.leaveStart false])

/-! ## The restore -/

/-- May a restore be done: every slot FREE, every voice IDLE, no request queued (R186, R187)? -/
def mayRestore (s : State) : Bool :=
  (fins 8).all (fun k => (s.slot k).state == .free) && (fins 8).all (fun v => (s.voice v).state == .idle) &&
    s.req.queue.isEmpty

/-- A restore in progress: the part, and the slots restored so far. -/
structure Restored where
  state : State
  slots : List (Fin 8)

/-- Is a saved state one that is restored: LOADING, RUNNING or HELD (R187)? -/
def savedRuns (code : Nat) : Bool := 1 ≤ code && code ≤ 3

/-- One saved slot (R187, 1). -/
def restoreOne (lines : List Byte) (r : Restored) (k : Fin 8) : Restored :=
  let saved := savedSlot lines k
  match numbered 32 saved.scene with
  | none => r
  | some n =>
    if savedRuns saved.state && (r.state.sceneRecord n).isEnabled && r.state.mayRestoreClaim n then
      ⟨r.state.restoreSlot k n saved, r.slots ++ [k]⟩
    else r

/-- What follows the restore for a restored slot: a script fault, or the end of a load that needs no line (R115). -/
def restoredTask (s : State) (lines : List Byte) (k : Fin 8) : Task :=
  let saved := savedSlot lines k
  if saved.isFaulty (s.slotScene k).steps then .faultRestored k else .endLoad k none

/-- The restore, judged once more at its last line (R187). The restored slots that fault or whose load ends at once follow
in rising slot number, each whole before the next (R115, log 48). -/
def endRestore (s : State) (lines : List Byte) : Effect :=
  let t := { s with ctl := { s.ctl with restore := none } }
  if t.mayRestore then
    let r := (fins 8).foldl (restoreOne lines) ⟨t, []⟩
    let u := (r.state.restoreLevels lines r.slots).restoreLanguages lines
    (u.produce (.restoreDone .restored r.slots.length), r.slots.map (u.restoredTask lines))
  else (t.produce (.restoreDone .busy 0), [])

/-- A line of the Snapshot Area arrives for the restore reader (R186, R187). -/
def takeRestoreLine (s : State) (r : Restore) (line : List Byte) : Effect :=
  match r.line with
  | none =>
    if markerValid line s.dir.sequence then ({ s with ctl := { s.ctl with restore := some ⟨some 0, []⟩ } }, [])
    else ({ s with ctl := { s.ctl with restore := none } }.produce (.restoreDone .invalid 0), [])
  | some n =>
    if n < 14 then ({ s with ctl := { s.ctl with restore := some ⟨some (n + 1), r.read ++ line⟩ } }, [])
    else s.endRestore (r.read ++ line)

end Sys2Proof.Machine.State
end

