-- ==== Sys2Proof/Machine/Cues.lean ====
section
/-! DEFINITION. The takes of cues (R44 to R46): each command takes the head of the Cue Queue, of the kind it names, checks
its fixed ranges and hands it to its unit. -/

namespace Sys2Proof.Machine

namespace State

/-- The entry leaves the queue, the consumer count rises and its write becomes pending (R44, 1 and 2). -/
def consumed (s : State) (rest : List CueEntry) : State :=
  { s with cue := { s.cue with queue := rest, consumer := s.cue.consumer + 1, writePending := true } }

end State

/-- A cue at its take: its index, tag and parameters. -/
structure TakenCue where
  index : Index
  tag : Index
  params : List Byte
  deriving DecidableEq, Repr

namespace State

/-- The CUE RESULT record of a cue (R46). -/
def answer (s : State) (c : TakenCue) (result : CueResult) (value : Word := 0) : State :=
  s.produce (.cueResult c.index c.tag result value)

/-- A cue refused, with no other effect. -/
def refuse (s : State) (c : TakenCue) (reason : Reason) : Effect := (s.answer c (.refused reason), [])

/-- A cue accepted, with no other effect in this event. -/
def accept (s : State) (c : TakenCue) : Effect := (s.answer c .accepted, [])

end State

/-- The take of the head of the Cue Queue, when it is of a kind and the show is not in START (R44). -/
def takeCue (s : State) (kind : Option CueKind) (effect : State → TakenCue → Effect) : Answer :=
  match s.cue.queue with
  | .cue index code tag params :: rest =>
    react s (s.ctl.state != .start && CueKind.ofByte code == kind) (effect (s.consumed rest) ⟨index, tag, params⟩)
  | _ => .next s

/-! ## What each unit does with its cue -/

namespace State

/-- REQUEST SCENE (R75 to R78). -/
def cueRequestScene (s : State) (c : TakenCue) : Effect :=
  match sceneParam c.params with
  | none => s.refuse c .range
  | some n =>
    match s.admission n (.cue c.tag) with
    | .turnedAway reason _ => s.refuse c reason
    | .merged => (s.answer c .merged, [])
    | .queued restart => ((s.answer c .queued).enqueue n (.cue c.tag) restart, [.askScan])

/-- STOP SCENE (R88, R111): the scene's slots at the take are stopped (log 13). -/
def cueStopScene (s : State) (c : TakenCue) : Effect :=
  match sceneParam c.params with
  | none => s.refuse c .range
  | some n =>
    if (s.sceneRecord n).isEnabled then
      ((s.answer c .accepted).dropWhere (fun r => r.scene == n) .stopped,
        (s.slotsWith n fun x => x != .free).map fun k => .stopSlot k .stopped)
    else s.refuse c .range

/-- STOP ALL (R111): the slots that are not FREE at the take are stopped (log 13). -/
def cueStopAll (s : State) (c : TakenCue) : Effect :=
  (s.answer c .accepted, ((fins 8).filter fun k => (s.slot k).state != .free).map fun k => .stopSlot k .stopped)

/-- The stop of a closed zone's owner slot (R64, 3). -/
def closeOwner (z : Zone) : List Task :=
  match z.owner with
  | none => []
  | some k => [.stopSlot k .zoneClosed]

/-- CLOSE ZONE (R64, R89). -/
def cueCloseZone (s : State) (c : TakenCue) : Effect :=
  match zoneParam c.params with
  | none => s.refuse c .range
  | some z =>
    if (s.zoneRecord z).isEnabled then
      let t := (s.answer c .accepted).setZone z { s.zone z with closed := true }
      (t.dropWhere (fun r => (s.sceneRecord r.scene).hasZone z.val) .zoneClosed, closeOwner (s.zone z))
    else s.refuse c .range

/-- OPEN ZONE (R65). -/
def cueOpenZone (s : State) (c : TakenCue) : Effect :=
  match zoneParam c.params with
  | none => s.refuse c .range
  | some z =>
    if (s.zoneRecord z).isEnabled then
      ((s.answer c .accepted).setZone z { s.zone z with closed := false }, [.askScan])
    else s.refuse c .range

/-- SET LANGUAGE (R73). -/
def cueSetLanguage (s : State) (c : TakenCue) : Effect :=
  match zoneParam c.params, languageParam c.params with
  | some z, some l =>
    if (s.zoneRecord z).isEnabled && l.val < s.languageCount then
      ((s.answer c .accepted).setZone z { s.zone z with language := l.val }, [])
    else s.refuse c .range
  | _, _ => s.refuse c .range

/-- SET BASE LEVEL (R125). -/
def cueSetBaseLevel (s : State) (c : TakenCue) : Effect :=
  match baseLevelParam c.params with
  | none => s.refuse c .range
  | some b => ((s.answer c .accepted).setBaseLevels b, [])

/-- HOUSE LIGHTS (R126). -/
def cueHouseLights (s : State) (c : TakenCue) : Effect :=
  match switchParam c.params with
  | none => s.refuse c .range
  | some on =>
    if !on && s.ctl.state == .safe then s.refuse c .wrongState
    else
      let t := s.answer c .accepted
      ({ t with lamp := { t.lamp with houseLights := on } }, [])

/-- HOME AXIS for one axis (R154). -/
def cueHomeOne (s : State) (c : TakenCue) (n : Fin 12) : Effect :=
  if !(s.axisRecord n).isEnabled then s.refuse c .range
  else if s.ctl.state ≠ .run then s.refuse c .wrongState
  else if s.mayHome n then (s.answer c .accepted, [.homeByCue n])
  else s.refuse c .busy

/-- HOME AXIS ALL (R154, log 14). -/
def cueHomeAll (s : State) (c : TakenCue) : Effect :=
  if s.ctl.state ≠ .run then s.refuse c .wrongState
  else
    let chosen := (fins 12).filter s.mayHome
    let t := s.answer c .accepted (BitVec.ofNat 32 chosen.length)
    ({ t with req := { t.req with underWay := true } }, chosen.map .homeByCue ++ [.endHoming])

/-- HOME AXIS (R154). -/
def cueHomeAxis (s : State) (c : TakenCue) : Effect :=
  match axisParam c.params with
  | none => s.refuse c .range
  | some (.one n) => s.cueHomeOne c n
  | some .all => s.cueHomeAll c

/-- HOLD SHOW (R175). -/
def cueHoldShow (s : State) (c : TakenCue) : Effect :=
  if s.ctl.state = .run then (s.answer c .accepted).enterHold .hold else s.refuse c .wrongState

/-- RELEASE SHOW (R175). -/
def cueReleaseShow (s : State) (c : TakenCue) : Effect :=
  if s.ctl.state = .hold then (s.answer c .accepted).leaveHold else s.refuse c .wrongState

/-- CLEAR FAULT (R182). -/
def cueClearFault (s : State) (c : TakenCue) : Effect :=
  match bankParam c.params with
  | none => s.refuse c .range
  | some b => (((s.answer c .accepted).setBank b .invalid).markDirty, [])

/-- ENTER SAFE (R177). -/
def cueEnterSafe (s : State) (c : TakenCue) : Effect :=
  match s.ctl.state with
  | .run | .hold | .draining => (s.answer c .accepted).enterSafe
  | .safe | .start | .unconfigured => s.accept c

/-- LEAVE SAFE (R178). -/
def cueLeaveSafe (s : State) (c : TakenCue) : Effect :=
  if s.ctl.state ≠ .safe then s.refuse c .wrongState
  else if s.fault.alarmed then s.refuse c .severeOutstanding
  else ((s.answer c .accepted).changeShow .run, runNotices)

/-- RESTORE SHOW (R186). -/
def cueRestoreShow (s : State) (c : TakenCue) : Effect :=
  if s.ctl.state ≠ .run then s.refuse c .wrongState
  else if s.mayRestore && s.ctl.snapshot.isNone && s.ctl.restore.isNone then
    let t := s.answer c .accepted
    ({ t with ctl := { t.ctl with restore := some ⟨none, []⟩ } }, [])
  else s.refuse c .busy

/-- MARK (R45). -/
def cueMark (s : State) (c : TakenCue) : Effect :=
  (s.answer c .accepted (BitVec.ofNat 32 (param32 c.params 4)), [])

end State

/-! ## The commands -/

/-- REQUEST_SCENE (R75). -/
def execRequestScene (s : State) : Answer := takeCue s (some .requestScene) State.cueRequestScene

/-- STOP_SCENE (R88). -/
def execStopScene (s : State) : Answer := takeCue s (some .stopScene) State.cueStopScene

/-- STOP_ALL (R111). -/
def execStopAll (s : State) : Answer := takeCue s (some .stopAll) State.cueStopAll

/-- CLOSE_ZONE (R64). -/
def execCloseZone (s : State) : Answer := takeCue s (some .closeZone) State.cueCloseZone

/-- OPEN_ZONE (R65). -/
def execOpenZone (s : State) : Answer := takeCue s (some .openZone) State.cueOpenZone

/-- SET_LANGUAGE (R73). -/
def execSetLanguage (s : State) : Answer := takeCue s (some .setLanguage) State.cueSetLanguage

/-- SET_BASE_LEVEL (R125). -/
def execSetBaseLevel (s : State) : Answer := takeCue s (some .setBaseLevel) State.cueSetBaseLevel

/-- HOUSE_LIGHTS (R126). -/
def execHouseLights (s : State) : Answer := takeCue s (some .houseLights) State.cueHouseLights

/-- HOME_AXIS (R154). -/
def execHomeAxis (s : State) : Answer := takeCue s (some .homeAxis) State.cueHomeAxis

/-- HOLD_SHOW (R175). -/
def execHoldShow (s : State) : Answer := takeCue s (some .holdShow) State.cueHoldShow

/-- RELEASE_SHOW (R175). -/
def execReleaseShow (s : State) : Answer := takeCue s (some .releaseShow) State.cueReleaseShow

/-- CLEAR_FAULT (R182). -/
def execClearFault (s : State) : Answer := takeCue s (some .clearFault) State.cueClearFault

/-- ENTER_SAFE (R177). -/
def execEnterSafe (s : State) : Answer := takeCue s (some .enterSafe) State.cueEnterSafe

/-- LEAVE_SAFE (R178). -/
def execLeaveSafe (s : State) : Answer := takeCue s (some .leaveSafe) State.cueLeaveSafe

/-- RESTORE_SHOW (R186). -/
def execRestoreShow (s : State) : Answer := takeCue s (some .restoreShow) State.cueRestoreShow

/-- MARK (R45). -/
def execMark (s : State) : Answer := takeCue s (some .mark) State.cueMark

/-- UNKNOWN_KIND (R45). -/
def execUnknownKind (s : State) : Answer := takeCue s none fun t c => t.refuse c .unknownKind

/-- FAILED_ENTRY_TAKE (R44, 3): tag 0, nothing handed to any unit. -/
def execFailedEntryTake (s : State) : Answer :=
  match s.cue.queue with
  | .failed index :: rest =>
    react s (s.ctl.state != .start) ((s.consumed rest).produce (.cueResult index 0 .failed 0), [])
  | _ => .next s

end Sys2Proof.Machine
end

