-- ==== Sys2Proof/Machine/Inputs.lean ====
section
/-! DEFINITION. Guard inputs, visitor inputs and the deadlines of zones and requests (files 04 and 05). -/

namespace Sys2Proof.Machine

namespace State

def setGuardLine (s : State) (line : Fin 8) (level : Level) : State :=
  { s with lines := { s.lines with guard := put s.lines.guard line level } }

def setVisitorLine (s : State) (i : Fin 24) (level : Level) : State :=
  { s with lines := { s.lines with visitor := put s.lines.visitor i level } }

/-- What a guard line going active does (R66, R68). -/
def guardRises (s : State) (line : Fin 8) : Effect :=
  match s.guardZone line with
  | none => (s, [])
  | some z => s.tripGuard z

/-- What a guard line going inactive does (R66, R68). -/
def guardFalls (s : State) (line : Fin 8) : Effect :=
  match s.guardZone line with
  | none => (s, [])
  | some z => (s.settleGuard z, [])

/-- A press edge of a BUTTON or MAT that names a scene makes a request (R70). -/
def pressScene (s : State) (i : Fin 24) : Effect :=
  match numbered 32 (s.inputRecord i).scene with
  | none => (s, [])
  | some n => s.request n (.trigger i)

/-- What a press edge asks, by the input's kind (R70, R72). -/
def press (s : State) (i : Fin 24) : Effect :=
  if (s.inputRecord i).pressesScene then s.pressScene i
  else if (s.inputRecord i).isLanguage then (s.stepLanguage i, [])
  else (s, [])

/-- A taken edge (R69 to R72): a press first, then the slots that wait on the level (log 30). -/
def edge (s : State) (i : Fin 24) : Effect :=
  let t := s.takeLevel i
  let e := if (t.input i).debounced = .active then t.press i else (t, [])
  (e.1, e.2 ++ wakeTasks s (Condition.isInput i))

end State

/-- GUARD_INPUT_ACTIVE (R66). -/
def execGuardInputActive (line : Fin 8) (s : State) : Answer :=
  let t := s.setGuardLine line .active
  onLine s (s.lines.guard.get line == .inactive) t (t.guardRises line)

/-- GUARD_INPUT_INACTIVE (R66). -/
def execGuardInputInactive (line : Fin 8) (s : State) : Answer :=
  let t := s.setGuardLine line .inactive
  onLine s (s.lines.guard.get line == .active) t (t.guardFalls line)

/-- SETTLE_DEADLINE (R66). -/
def execSettleDeadline (z : Fin 8) (s : State) : Answer :=
  react s (s.isDue (.settleDeadline z)) (s.clearGuard z)

/-- VISITOR_LINE_CHANGE (R69); before the first take the lines are not watched (R57). -/
def execVisitorLineChange (i : Fin 24) (level : Level) (s : State) : Answer :=
  let t := s.setVisitorLine i level
  onLine s (s.lines.visitor.get i != level) t (if s.dir.taken.isSome then t.followLine i level else t, [])

/-- DEBOUNCE_DEADLINE (R69). -/
def execDebounceDeadline (i : Fin 24) (s : State) : Answer := react s (s.isDue (.debounceDeadline i)) (s.edge i)

/-- COOLDOWN_DEADLINE (R79). -/
def execCooldownDeadline (scene : Fin 32) (s : State) : Answer :=
  react s (s.isDue (.cooldownDeadline scene))
    ({ s with req := { s.req with cooldown := put s.req.cooldown scene none } }, [])

/-- REQUEST_EXPIRES (R86). -/
def execRequestExpires (scene : Fin 32) (s : State) : Answer :=
  react s (s.isDue (.requestExpires scene)) (s.dropWhere (fun r => r.scene == scene) .expired, [])

end Sys2Proof.Machine
end

