-- ==== Sys2Proof/Machine/Load.lean ====
section
/-! DEFINITION. The directory load (file 02). -/

namespace Sys2Proof.Machine

/-- DIRECTORY_LINE_ARRIVES (R25, R27). -/
def execDirectoryLineArrives (data : List Byte) (s : State) : Answer :=
  onAnswer s (fun f => f.purpose.isDirectory && data.length == f.length) fun _ =>
    let t := s.freePort
    match s.dir.load with
    | .idle => (t, [])
    | .loading n =>
      let image := s.dir.image ++ data
      if n < 63 then ({ t with dir := { t.dir with image := image, load := .loading (n + 1) } }, [])
      else t.judgeImage image

/-- DIRECTORY_READ_FAILED (R26, R34). -/
def execDirectoryReadFailed (s : State) : Answer :=
  onAnswer s (fun f => f.purpose.isDirectory) fun f =>
    (s.freePort.discardImage.log .directoryReadFailed [f.addr], [.leaveStart false])

end Sys2Proof.Machine
end

