-- ==== Sys2Proof/Machine/Motion.lean ====
section
/-! DEFINITION. The commands of the motion axes (file 09): lines, ends of motions, limits, and the instants of the profile. -/

namespace Sys2Proof.Machine

namespace State

def setHomeLine (s : State) (n : Fin 12) (level : Level) : State :=
  { s with lines := { s.lines with home := put s.lines.home n level } }

def setStallLine (s : State) (n : Fin 12) (level : Level) : State :=
  { s with lines := { s.lines with stall := put s.lines.stall n level } }

/-- A stall line going active: not acted on for a disabled axis, nor for one FAULTED by a stall (R147, R159). -/
def stallRises (s : State) (n : Fin 12) : Effect :=
  if (s.axisRecord n).isEnabled && !(s.axis n).stalled then s.stallAxis n else (s, [])

/-- The axis passes to the part of the profile that follows, its pulses of the old part given (R149). -/
def nextPart (s : State) (n : Fin 12) : State :=
  let a := s.axis n
  let rec' := s.axisRecord n
  match a.run with
  | none => s
  | some r =>
    let f := r.following rec' a.direction a.aim
    s.setAxis n { a with position := a.dueAt rec', run := some f.1, direction := f.2 }

end State

/-- HOME_SWITCH_ACTIVE (R153). -/
def execHomeSwitchActive (n : Fin 12) (s : State) : Answer :=
  let t := s.setHomeLine n .active
  onLine s (s.lines.home.get n == .inactive) t (t, [.findHome n])

/-- HOME_SWITCH_INACTIVE (R153): the switch is acted on when it goes active, or is active, alone. -/
def execHomeSwitchInactive (n : Fin 12) (s : State) : Answer :=
  let t := s.setHomeLine n .inactive
  onLine s (s.lines.home.get n == .active) t (t, [])

/-- STALL (R159). -/
def execStall (n : Fin 12) (s : State) : Answer :=
  let t := s.setStallLine n .active
  onLine s (s.lines.stall.get n == .inactive) t (t.stallRises n)

/-- STALL_INPUT_INACTIVE (R159): an axis stays FAULTED until it is moved or homed. -/
def execStallInputInactive (n : Fin 12) (s : State) : Answer :=
  let t := s.setStallLine n .inactive
  onLine s (s.lines.stall.get n == .active) t (t, [])

/-- HOME_NOT_FOUND (R153). -/
def execHomeNotFound (n : Fin 12) (s : State) : Answer :=
  react s (s.isDue (.homeNotFound n)) (s.failHoming n)

/-- ARRIVAL (R152). -/
def execArrival (n : Fin 12) (s : State) : Answer :=
  react s (s.isDue (.arrival n)) (s, [.arrive n])

/-- MOVE_TIMEOUT (R152). -/
def execMoveTimeout (n : Fin 12) (s : State) : Answer :=
  react s (s.isDue (.moveTimeout n)) (s.timeOutMove n)

/-- SUSPENDING_AT_REST (R155). -/
def execSuspendingAtRest (n : Fin 12) (s : State) : Answer :=
  react s (s.isDue (.suspendingAtRest n)) (s.restSuspended n, [])

/-- HALT_ENDS (R160, R152). -/
def execHaltEnds (n : Fin 12) (s : State) : Answer :=
  react s (s.isDue (.haltEnds n)) (s, [.endHalt n])

/-- SUSPEND_LIMIT (R157). -/
def execSuspendLimit (n : Fin 12) (s : State) : Answer :=
  react s (s.isDue (.suspendLimit n)) (s.abandonMotion n)

/-- MAXIMUM_SPEED_REACHED (R149). -/
def execMaximumSpeedReached (n : Fin 12) (s : State) : Answer :=
  react s (s.isDue (.maximumSpeedReached n)) (s.nextPart n, [])

/-- BEGIN_TO_SLOW (R149). -/
def execBeginToSlow (n : Fin 12) (s : State) : Answer :=
  react s (s.isDue (.beginToSlow n)) (s.nextPart n, [])

/-- DIRECTION_REVERSAL (R149). -/
def execDirectionReversal (n : Fin 12) (s : State) : Answer :=
  react s (s.isDue (.directionReversal n)) (s.nextPart n, [])

/-- STEP_PULSE (R148, R149): due while the travel has reached whole steps the output has not given. -/
def execStepPulse (n : Fin 12) (s : State) : Answer :=
  react s (s.isDue (.stepPulse n)) (s.pulse n, [])

end Sys2Proof.Machine
end

