-- ==== Sys2Proof/Machine/Outputs.lean ====
section
/-! DEFINITION. The lamp frame (R119) and the commands of the narration voices (file 08). -/

namespace Sys2Proof.Machine

/-- LAMP_FRAME (R119, R120). -/
def execLampFrame (s : State) : Answer := react s (s.isDue .lampFrame) s.frameEvent

/-- CLIP_GROUP_ARRIVES (R134, R143). -/
def execClipGroupArrives (data : List Byte) (s : State) : Answer :=
  onAnswer s (fun f => data.length == f.length && (match f.purpose with | .clipGroup _ => true | _ => false)) fun f =>
    match f.purpose with
    | .clipGroup v =>
      if f.live && (s.voice v).state == .lookup then s.freePort.takeClipGroup v data else (s.freePort, [])
    | _ => (s, [])

/-- CLIP_LINE_ARRIVES (R137, R143). -/
def execClipLineArrives (data : List Byte) (s : State) : Answer :=
  onAnswer s (fun f => data.length == f.length && (match f.purpose with | .clipLine _ => true | _ => false)) fun f =>
    match f.purpose with
    | .clipLine v => (if f.live then s.freePort.takeClipLine v data else s.freePort, [])
    | _ => (s, [])

/-- CLIP_READ_FAILED (R143, R144), of a clip group record or of a clip line. -/
def execClipReadFailed (s : State) : Answer :=
  onAnswer s (fun f => match f.purpose with | .clipLine _ | .clipGroup _ => true | _ => false) fun f =>
    match f.purpose with
    | .clipLine v | .clipGroup v => s.freePort.failVoiceRead v f.live f.addr
    | _ => (s, [])

/-- SAMPLE_INSTANT (R132): at most 24 in each ms (log 8). -/
def execSampleInstant (s : State) : Answer := react s (s.isDue .sampleInstant) s.sampleAll

/-- CUT_DEADLINE (R141). -/
def execCutDeadline (v : Fin 8) (s : State) : Answer :=
  react s (s.isDue (.cutDeadline v)) (s.endCut v)

end Sys2Proof.Machine
end

