-- ==== Sys2Proof/Machine/Port.lean ====
section
/-! DEFINITION. Hardware reset, and the processor's transactions from their arrival to memory's answer (file 01). -/

namespace Sys2Proof.Machine

namespace State

/-- A presented transaction becomes the forwarded one and waits at the Arbiter (R1, R22). -/
def forward (s : State) (t : Transaction) : State :=
  { s with up := ⟨some t, none⟩, arb := { s.arb with forwarded := true, forwardedWait := 0 } }

/-- An observed word with the bytes of a completed write that fall on it (R17). -/
def observed (copy : Word) (word addr : Nat) (data : List Byte) : Word :=
  BitVec.ofNat 32 <| word32At
    ((fins 4).map fun i =>
      let a := word + i.val
      if addr ≤ a ∧ a < addr + data.length then data.getD (a - addr) 0 else (bytes32 copy.toNat).getD i.val 0) 0

/-- The Cue Unit is handed a producer value (R40). -/
def takeProducer (s : State) (slots : Nat) : State :=
  let p : Index := s.disp.cueProducer.setWidth 16
  if slots < (p - s.cue.consumer).toNat then s.log .cueProducerOverrun [p.toNat, s.cue.consumer.toNat]
  else { s with cue := { s.cue with accepted := p } }

/-- The Report Unit is handed a consumer value (R53). -/
def takeConsumer (s : State) : State :=
  let v : Index := s.disp.reportConsumer.setWidth 16
  if (v - s.report.consumer).toNat ≤ (s.report.producer - s.report.consumer).toNat then
    { s with report := { s.report with consumer := v } }
  else s.log .reportConsumerInvalid [v.toNat, s.report.consumer.toNat, s.report.producer.toNat]

/-- A completed write is compared with the ring words (R17, R18). -/
def observeRings (s : State) (addr : Nat) (data : List Byte) : State :=
  match s.dir.taken with
  | none => s
  | some d =>
    let t :=
      if covers addr data.length d.cueBase then
        { s with disp := { s.disp with cueProducer := observed s.disp.cueProducer d.cueBase addr data } }.takeProducer
          d.cueSlots
      else s
    if covers addr data.length (d.reportBase + 4) then
      { t with disp := { t.disp with
          reportConsumer := observed t.disp.reportConsumer (d.reportBase + 4) addr data } }.takeConsumer
    else t

/-- A completed write is compared with the observed words, the reload word last (R17, R36). -/
def observe (s : State) (addr : Nat) (data : List Byte) : Effect :=
  let t := s.observeRings addr data
  if covers addr data.length 0xFFC then
    { t with disp := { t.disp with reloadWord := observed t.disp.reloadWord 0xFFC addr data } }.requestReload
  else (t, [])

end State

/-- HARDWARE_RESET (R23, R5): every block returns to its reset values; the input lines keep their levels. -/
def execHardwareReset (s : State) : Answer :=
  .next { State.reset with pending := s.pending, lines := s.lines, freeDraws := s.freeDraws }

/-- RESET_RELEASE (R24, R25): the part leaves reset in START and its first load begins. -/
def execResetRelease (s : State) : Answer :=
  if s.resetLow then .next (conclude ({ s with resetLow := false }.beginLoad, [])) else .next s

/-- FORWARDED_READ_ARRIVES (R1). -/
def execForwardedReadArrives (addr : Address) (length : Nat) (cls : TxClass) (s : State) : Answer :=
  react s s.up.held.isNone (s.forward ⟨.read, addr, length, cls, []⟩, [])

/-- FORWARDED_WRITE_ARRIVES (R1). -/
def execForwardedWriteArrives (addr : Address) (length : Nat) (cls : TxClass) (data : List Byte) (s : State) : Answer :=
  react s s.up.held.isNone (s.forward ⟨.write, addr, length, cls, data⟩, [])

/-- WITHDRAWN_WRITE (R2): no state changes. -/
def execWithdrawnWrite (_addr : Address) (_length : Nat) (_cls : TxClass) (_data : List Byte) (s : State) : Answer :=
  .next s

/-- FORWARDED_DATA (R3). -/
def execForwardedData (data : List Byte) (s : State) : Answer :=
  onAnswer s (fun f => f.purpose.isForwarded && f.kind == .read && data.length == f.length) fun _ =>
    (s.freePort.respond (.data data), [])

/-- FORWARDED_WRITE_DONE (R3, R17). -/
def execForwardedWriteDone (s : State) : Answer :=
  onAnswer s (fun f => f.purpose.isForwarded && f.kind == .write) fun f =>
    (s.freePort.respond .done).observe f.addr f.data

/-- MEMORY_ERROR_FORWARDED (R15). -/
def execMemoryErrorForwarded (s : State) : Answer :=
  onAnswer s (fun f => f.purpose.isForwarded) fun f =>
    let cls := match s.up.held with
      | none => TxClass.showClass
      | some t => t.cls
    ((s.freePort.respond .memoryError).log .memoryErrorForwarded [f.addr, classCode cls, f.kind.code], [])

end Sys2Proof.Machine
end

