-- ==== Sys2Proof/Machine/ReportRing.lean ====
section
/-! DEFINITION. The Report Ring's traffic (R51, R52, R54). -/

namespace Sys2Proof.Machine

/-- The lost count a record write carried (R51). -/
def Purpose.lostCarried : Purpose → Nat
  | .record n => n
  | _ => 0

namespace State

/-- The head record has been written (R51). -/
def recordWritten (s : State) (carried : Nat) : State :=
  { s with report := { s.report with queue := s.report.queue.tail, producer := s.report.producer + 1,
                                     lost := s.report.lost - carried, writePending := true } }

/-- The head record is lost (R51). -/
def recordLost (s : State) : State := { s with report := { s.report with queue := s.report.queue.tail } }.lose 1

end State

/-- REPORT_RECORD_DONE (R51, R54). -/
def execReportRecordDone (s : State) : Answer :=
  onAnswer s (fun f => f.purpose.isRecord) fun f =>
    (if f.live then s.freePort.recordWritten f.purpose.lostCarried else s.freePort, [])

/-- REPORT_WRITE_FAILED (R51, R54). -/
def execReportWriteFailed (s : State) : Answer :=
  onAnswer s (fun f => f.purpose.isRecord) fun f =>
    ((if f.live then s.freePort.recordLost else s.freePort).log .reportWriteFailed [f.addr], [])

/-- PRODUCER_WRITE_DONE (R52, R54). -/
def execProducerWriteDone (s : State) : Answer :=
  onAnswer s (fun f => f.purpose.isProducer) fun f =>
    let t := s.freePort
    (if f.live && s.report.producer == f.purpose.indexValue then
       { t with report := { t.report with writePending := false } }
     else t, [])

/-- PRODUCER_WRITE_FAILED (R52, R16): the write stays pending. -/
def execProducerWriteFailed (s : State) : Answer :=
  onAnswer s (fun f => f.purpose.isProducer) fun f =>
    (s.freePort.log .memoryErrorInternal [f.addr, f.purpose.classCode], [])

end Sys2Proof.Machine
end

