-- ==== Sys2Proof/Machine/Scripts.lean ====
section
/-! DEFINITION. Script reads, steps falling due and waits running out (file 06). -/

namespace Sys2Proof.Machine

/-- SCRIPT_LINE_ARRIVES (R94, R96). -/
def execScriptLineArrives (data : List Byte) (s : State) : Answer :=
  onAnswer s (fun f => data.length == f.length && (match f.purpose with | .script _ => true | _ => false)) fun f =>
    match f.purpose with
    | .script k => if f.live then s.freePort.enterLine k data else (s.freePort, [])
    | _ => (s, [])

/-- SCRIPT_READ_FAILED (R96). -/
def execScriptReadFailed (s : State) : Answer :=
  onAnswer s (fun f => match f.purpose with | .script _ => true | _ => false) fun f =>
    match f.purpose with
    | .script k => s.freePort.failFetch k f.live f.addr
    | _ => (s, [])

/-- LAMP_STEP (R100): the clock has reached the next step's offset; it is taken, and the steps then due after it (R98). -/
def execLampStep (k : Fin 8) (s : State) : Answer := react s (s.isDue (.lampStep k)) (s, [.takeSteps k none])

/-- NARRATE_STEP (R101). -/
def execNarrateStep (k : Fin 8) (s : State) : Answer := react s (s.isDue (.narrateStep k)) (s, [.takeSteps k none])

/-- MOVE_STEP (R102). -/
def execMoveStep (k : Fin 8) (s : State) : Answer := react s (s.isDue (.moveStep k)) (s, [.takeSteps k none])

/-- WAIT_STEP (R103). -/
def execWaitStep (k : Fin 8) (s : State) : Answer := react s (s.isDue (.waitStep k)) (s, [.takeSteps k none])

/-- MARK_STEP (R105). -/
def execMarkStep (k : Fin 8) (s : State) : Answer := react s (s.isDue (.markStep k)) (s, [.takeSteps k none])

/-- LOOP_STEP (R106). -/
def execLoopStep (k : Fin 8) (s : State) : Answer := react s (s.isDue (.loopStep k)) (s, [.takeSteps k none])

/-- END_STEP (R105). -/
def execEndStep (k : Fin 8) (s : State) : Answer := react s (s.isDue (.endStep k)) (s, [.takeSteps k none])

/-- UNKNOWN_STEP_KIND (R99). -/
def execUnknownStepKind (k : Fin 8) (s : State) : Answer := react s (s.isDue (.unknownStepKind k)) (s, [.takeSteps k none])

/-- SCRIPT_RUNS_OUT (R98, R105). -/
def execScriptRunsOut (k : Fin 8) (s : State) : Answer :=
  react s (s.isDue (.scriptRunsOut k)) (s, [.stopSlot k .completed])

/-- WAIT_TIMEOUT (R104). -/
def execWaitTimeout (k : Fin 8) (s : State) : Answer :=
  match (s.slot k).wait with
  | none => .next s
  | some w =>
    react s (s.isDue (.waitTimeout k)) (s.timeOutWait k w)

end Sys2Proof.Machine
end

