-- ==== Sys2Proof/Machine/Show.lean ====
section
/-! DEFINITION. The power warning, the Fault Page, the snapshot and the restore reader (file 11). -/

namespace Sys2Proof.Machine

namespace State

def setPowerLine (s : State) (level : Level) : State := { s with lines := { s.lines with power := level } }

/-- The power warning's edge (R176). -/
def warnPower (s : State) : Effect :=
  let t := s.log .powerWarning []
  match s.ctl.state with
  | .run => t.enterHold .powerWarning
  | .hold | .draining | .safe => (t, [.startSnapshot .powerWarning])
  | .start | .unconfigured => (t, [])

/-- A Fault Page line is written: the next follows, and after line 3 the writer is idle (R183). -/
def pageLineWritten (s : State) : State :=
  { s with fault := { s.fault with
      writer := match s.fault.writer with
        | none => none
        | some n => if n < 3 then some (n + 1) else none } }

/-- A snapshot line is written (R185). -/
def snapshotLineWritten (s : State) : State :=
  match s.ctl.snapshot with
  | none => s
  | some w =>
    if w.due < 16 then { s with ctl := { s.ctl with snapshot := some { w with due := w.due + 1 } } }
    else { s with ctl := { s.ctl with snapshot := none } }.produce (.snapshotDone w.reason w.sequence)

end State

/-- POWER_WARNING (R176). -/
def execPowerWarning (s : State) : Answer :=
  let t := s.setPowerLine .active
  onLine s (s.lines.power == .inactive) t t.warnPower

/-- POWER_WARNING_INACTIVE (R176): no effect but the line's level. -/
def execPowerWarningInactive (s : State) : Answer :=
  let t := s.setPowerLine .inactive
  onLine s (s.lines.power == .active) t (t, [])

/-- FAULT_PAGE_LINE_DONE (R183). -/
def execFaultPageLineDone (s : State) : Answer :=
  onAnswer s (fun f => f.purpose.isPage) fun f => (if f.live then s.freePort.pageLineWritten else s.freePort, [])

/-- FAULT_PAGE_WRITE_FAILED (R183): the pass ends; the fault it logs does not mark the page dirty. -/
def execFaultPageWriteFailed (s : State) : Answer :=
  onAnswer s (fun f => f.purpose.isPage) fun f =>
    let t := s.freePort
    let u := if f.live then { t with fault := { t.fault with writer := none } } else t
    (u.logMarking false .faultPageWriteFailed [], [])

/-- SNAPSHOT_LINE_DONE (R185). -/
def execSnapshotLineDone (s : State) : Answer :=
  onAnswer s (fun f => f.purpose.isSnapshot) fun f =>
    (if f.live then s.freePort.snapshotLineWritten else s.freePort, [])

/-- SNAPSHOT_FAILED (R185). -/
def execSnapshotFailed (s : State) : Answer :=
  onAnswer s (fun f => f.purpose.isSnapshot) fun f =>
    let t := s.freePort
    let u := if f.live then { t with ctl := { t.ctl with snapshot := none } } else t
    (u.log .snapshotFailed [], [])

/-- RESTORE_LINE_ARRIVES (R186, R187). -/
def execRestoreLineArrives (data : List Byte) (s : State) : Answer :=
  onAnswer s (fun f => f.purpose.isRestore && data.length == f.length) fun f =>
    match s.ctl.restore with
    | none => (s.freePort, [])
    | some r => if f.live then s.freePort.takeRestoreLine r data else (s.freePort, [])

/-- RESTORE_READ_FAILED (R186, R16). -/
def execRestoreReadFailed (s : State) : Answer :=
  onAnswer s (fun f => f.purpose.isRestore) fun f =>
    let t := s.freePort.log .memoryErrorInternal [f.addr, f.purpose.classCode]
    if f.live then
      ({ t with ctl := { t.ctl with restore := none } }.produce (.restoreDone .failed 0), [])
    else (t, [])

end Sys2Proof.Machine
end

