-- ==== Sys2Proof/Machine/Dispatch.lean ====
section
/-! DEFINITION. Every command to its meaning: the queue of commands left aside, what each does. -/

namespace Sys2Proof.Machine

/-- The effect of a command. -/
def exec (i : Instr) (s : State) : Host.Outcome State Fault Refusal :=
  match i with
  | .hardwareReset => Sys2Proof.Machine.execHardwareReset s
  | .resetRelease => Sys2Proof.Machine.execResetRelease s
  | .forwardedReadArrives addr length cls => Sys2Proof.Machine.execForwardedReadArrives addr length cls s
  | .forwardedWriteArrives addr length cls data => Sys2Proof.Machine.execForwardedWriteArrives addr length cls data s
  | .withdrawnWrite addr length cls data => Sys2Proof.Machine.execWithdrawnWrite addr length cls data s
  | .forwardedData data => Sys2Proof.Machine.execForwardedData data s
  | .forwardedWriteDone => Sys2Proof.Machine.execForwardedWriteDone s
  | .memoryErrorForwarded => Sys2Proof.Machine.execMemoryErrorForwarded s
  | .directoryLineArrives data => Sys2Proof.Machine.execDirectoryLineArrives data s
  | .directoryReadFailed => Sys2Proof.Machine.execDirectoryReadFailed s
  | .cueLineArrives data => Sys2Proof.Machine.execCueLineArrives data s
  | .cueFetchFailed => Sys2Proof.Machine.execCueFetchFailed s
  | .consumerWriteDone => Sys2Proof.Machine.execConsumerWriteDone s
  | .consumerWriteFailed => Sys2Proof.Machine.execConsumerWriteFailed s
  | .requestScene => Sys2Proof.Machine.execRequestScene s
  | .stopScene => Sys2Proof.Machine.execStopScene s
  | .stopAll => Sys2Proof.Machine.execStopAll s
  | .closeZone => Sys2Proof.Machine.execCloseZone s
  | .openZone => Sys2Proof.Machine.execOpenZone s
  | .setLanguage => Sys2Proof.Machine.execSetLanguage s
  | .setBaseLevel => Sys2Proof.Machine.execSetBaseLevel s
  | .houseLights => Sys2Proof.Machine.execHouseLights s
  | .homeAxis => Sys2Proof.Machine.execHomeAxis s
  | .holdShow => Sys2Proof.Machine.execHoldShow s
  | .releaseShow => Sys2Proof.Machine.execReleaseShow s
  | .clearFault => Sys2Proof.Machine.execClearFault s
  | .enterSafe => Sys2Proof.Machine.execEnterSafe s
  | .leaveSafe => Sys2Proof.Machine.execLeaveSafe s
  | .restoreShow => Sys2Proof.Machine.execRestoreShow s
  | .mark => Sys2Proof.Machine.execMark s
  | .unknownKind => Sys2Proof.Machine.execUnknownKind s
  | .failedEntryTake => Sys2Proof.Machine.execFailedEntryTake s
  | .reportRecordDone => Sys2Proof.Machine.execReportRecordDone s
  | .reportWriteFailed => Sys2Proof.Machine.execReportWriteFailed s
  | .producerWriteDone => Sys2Proof.Machine.execProducerWriteDone s
  | .producerWriteFailed => Sys2Proof.Machine.execProducerWriteFailed s
  | .guardInputActive line => Sys2Proof.Machine.execGuardInputActive line s
  | .guardInputInactive line => Sys2Proof.Machine.execGuardInputInactive line s
  | .settleDeadline zone => Sys2Proof.Machine.execSettleDeadline zone s
  | .visitorLineChange input level => Sys2Proof.Machine.execVisitorLineChange input level s
  | .debounceDeadline input => Sys2Proof.Machine.execDebounceDeadline input s
  | .cooldownDeadline scene => Sys2Proof.Machine.execCooldownDeadline scene s
  | .requestExpires scene => Sys2Proof.Machine.execRequestExpires scene s
  | .scriptLineArrives data => Sys2Proof.Machine.execScriptLineArrives data s
  | .scriptReadFailed => Sys2Proof.Machine.execScriptReadFailed s
  | .lampStep slot => Sys2Proof.Machine.execLampStep slot s
  | .narrateStep slot => Sys2Proof.Machine.execNarrateStep slot s
  | .moveStep slot => Sys2Proof.Machine.execMoveStep slot s
  | .waitStep slot => Sys2Proof.Machine.execWaitStep slot s
  | .markStep slot => Sys2Proof.Machine.execMarkStep slot s
  | .loopStep slot => Sys2Proof.Machine.execLoopStep slot s
  | .endStep slot => Sys2Proof.Machine.execEndStep slot s
  | .scriptRunsOut slot => Sys2Proof.Machine.execScriptRunsOut slot s
  | .waitTimeout slot => Sys2Proof.Machine.execWaitTimeout slot s
  | .lampFrame => Sys2Proof.Machine.execLampFrame s
  | .clipGroupArrives data => Sys2Proof.Machine.execClipGroupArrives data s
  | .clipLineArrives data => Sys2Proof.Machine.execClipLineArrives data s
  | .clipReadFailed => Sys2Proof.Machine.execClipReadFailed s
  | .sampleInstant => Sys2Proof.Machine.execSampleInstant s
  | .cutDeadline voice => Sys2Proof.Machine.execCutDeadline voice s
  | .homeSwitchActive axis => Sys2Proof.Machine.execHomeSwitchActive axis s
  | .homeNotFound axis => Sys2Proof.Machine.execHomeNotFound axis s
  | .arrival axis => Sys2Proof.Machine.execArrival axis s
  | .moveTimeout axis => Sys2Proof.Machine.execMoveTimeout axis s
  | .suspendingAtRest axis => Sys2Proof.Machine.execSuspendingAtRest axis s
  | .haltEnds axis => Sys2Proof.Machine.execHaltEnds axis s
  | .suspendLimit axis => Sys2Proof.Machine.execSuspendLimit axis s
  | .stall axis => Sys2Proof.Machine.execStall axis s
  | .powerWarning => Sys2Proof.Machine.execPowerWarning s
  | .faultPageLineDone => Sys2Proof.Machine.execFaultPageLineDone s
  | .faultPageWriteFailed => Sys2Proof.Machine.execFaultPageWriteFailed s
  | .snapshotLineDone => Sys2Proof.Machine.execSnapshotLineDone s
  | .snapshotFailed => Sys2Proof.Machine.execSnapshotFailed s
  | .restoreLineArrives data => Sys2Proof.Machine.execRestoreLineArrives data s
  | .restoreReadFailed => Sys2Proof.Machine.execRestoreReadFailed s
  | .maximumSpeedReached axis => Sys2Proof.Machine.execMaximumSpeedReached axis s
  | .beginToSlow axis => Sys2Proof.Machine.execBeginToSlow axis s
  | .directionReversal axis => Sys2Proof.Machine.execDirectionReversal axis s
  | .stepPulse axis => Sys2Proof.Machine.execStepPulse axis s
  | .unknownStepKind slot => Sys2Proof.Machine.execUnknownStepKind slot s
  | .powerWarningInactive => Sys2Proof.Machine.execPowerWarningInactive s
  | .stallInputInactive axis => Sys2Proof.Machine.execStallInputInactive axis s
  | .homeSwitchInactive axis => Sys2Proof.Machine.execHomeSwitchInactive axis s

end Sys2Proof.Machine
end

