-- ==== Sys2Proof/Laws/State.lean ====
section
/-! SUPPORT. One lemma for each field of the state and each update: the field stands, or is what the update makes it.
Proofs read an updated state through these, never through the record. -/

namespace Sys2Proof.Machine.State

section Fields

variable (s : State)

/-! ### setSlot -/

@[simp] theorem setSlot_pending (k : Fin 8) (x : Slot) : (s.setSlot k x).pending = s.pending := rfl
@[simp] theorem setSlot_showTime (k : Fin 8) (x : Slot) : (s.setSlot k x).showTime = s.showTime := rfl
@[simp] theorem setSlot_resetLow (k : Fin 8) (x : Slot) : (s.setSlot k x).resetLow = s.resetLow := rfl
@[simp] theorem setSlot_lines (k : Fin 8) (x : Slot) : (s.setSlot k x).lines = s.lines := rfl
@[simp] theorem setSlot_up (k : Fin 8) (x : Slot) : (s.setSlot k x).up = s.up := rfl
@[simp] theorem setSlot_arb (k : Fin 8) (x : Slot) : (s.setSlot k x).arb = s.arb := rfl
@[simp] theorem setSlot_port (k : Fin 8) (x : Slot) : (s.setSlot k x).port = s.port := rfl
@[simp] theorem setSlot_disp (k : Fin 8) (x : Slot) : (s.setSlot k x).disp = s.disp := rfl
@[simp] theorem setSlot_dir (k : Fin 8) (x : Slot) : (s.setSlot k x).dir = s.dir := rfl
@[simp] theorem setSlot_cue (k : Fin 8) (x : Slot) : (s.setSlot k x).cue = s.cue := rfl
@[simp] theorem setSlot_report (k : Fin 8) (x : Slot) : (s.setSlot k x).report = s.report := rfl
@[simp] theorem setSlot_zones (k : Fin 8) (x : Slot) : (s.setSlot k x).zones = s.zones := rfl
@[simp] theorem setSlot_inputs (k : Fin 8) (x : Slot) : (s.setSlot k x).inputs = s.inputs := rfl
@[simp] theorem setSlot_req (k : Fin 8) (x : Slot) : (s.setSlot k x).req = s.req := rfl
@[simp] theorem setSlot_lamp (k : Fin 8) (x : Slot) : (s.setSlot k x).lamp = s.lamp := rfl
@[simp] theorem setSlot_voices (k : Fin 8) (x : Slot) : (s.setSlot k x).voices = s.voices := rfl
@[simp] theorem setSlot_sampleCount (k : Fin 8) (x : Slot) : (s.setSlot k x).sampleCount = s.sampleCount := rfl
@[simp] theorem setSlot_axes (k : Fin 8) (x : Slot) : (s.setSlot k x).axes = s.axes := rfl
@[simp] theorem setSlot_pins (k : Fin 8) (x : Slot) : (s.setSlot k x).pins = s.pins := rfl
@[simp] theorem setSlot_fault (k : Fin 8) (x : Slot) : (s.setSlot k x).fault = s.fault := rfl
@[simp] theorem setSlot_ctl (k : Fin 8) (x : Slot) : (s.setSlot k x).ctl = s.ctl := rfl
@[simp] theorem setSlot_freeDraws (k : Fin 8) (x : Slot) : (s.setSlot k x).freeDraws = s.freeDraws := rfl

/-! ### setZone -/

@[simp] theorem setZone_pending (z : Fin 8) (x : Zone) : (s.setZone z x).pending = s.pending := rfl
@[simp] theorem setZone_showTime (z : Fin 8) (x : Zone) : (s.setZone z x).showTime = s.showTime := rfl
@[simp] theorem setZone_resetLow (z : Fin 8) (x : Zone) : (s.setZone z x).resetLow = s.resetLow := rfl
@[simp] theorem setZone_lines (z : Fin 8) (x : Zone) : (s.setZone z x).lines = s.lines := rfl
@[simp] theorem setZone_up (z : Fin 8) (x : Zone) : (s.setZone z x).up = s.up := rfl
@[simp] theorem setZone_arb (z : Fin 8) (x : Zone) : (s.setZone z x).arb = s.arb := rfl
@[simp] theorem setZone_port (z : Fin 8) (x : Zone) : (s.setZone z x).port = s.port := rfl
@[simp] theorem setZone_disp (z : Fin 8) (x : Zone) : (s.setZone z x).disp = s.disp := rfl
@[simp] theorem setZone_dir (z : Fin 8) (x : Zone) : (s.setZone z x).dir = s.dir := rfl
@[simp] theorem setZone_cue (z : Fin 8) (x : Zone) : (s.setZone z x).cue = s.cue := rfl
@[simp] theorem setZone_report (z : Fin 8) (x : Zone) : (s.setZone z x).report = s.report := rfl
@[simp] theorem setZone_inputs (z : Fin 8) (x : Zone) : (s.setZone z x).inputs = s.inputs := rfl
@[simp] theorem setZone_req (z : Fin 8) (x : Zone) : (s.setZone z x).req = s.req := rfl
@[simp] theorem setZone_slots (z : Fin 8) (x : Zone) : (s.setZone z x).slots = s.slots := rfl
@[simp] theorem setZone_lamp (z : Fin 8) (x : Zone) : (s.setZone z x).lamp = s.lamp := rfl
@[simp] theorem setZone_voices (z : Fin 8) (x : Zone) : (s.setZone z x).voices = s.voices := rfl
@[simp] theorem setZone_sampleCount (z : Fin 8) (x : Zone) : (s.setZone z x).sampleCount = s.sampleCount := rfl
@[simp] theorem setZone_axes (z : Fin 8) (x : Zone) : (s.setZone z x).axes = s.axes := rfl
@[simp] theorem setZone_pins (z : Fin 8) (x : Zone) : (s.setZone z x).pins = s.pins := rfl
@[simp] theorem setZone_fault (z : Fin 8) (x : Zone) : (s.setZone z x).fault = s.fault := rfl
@[simp] theorem setZone_ctl (z : Fin 8) (x : Zone) : (s.setZone z x).ctl = s.ctl := rfl
@[simp] theorem setZone_freeDraws (z : Fin 8) (x : Zone) : (s.setZone z x).freeDraws = s.freeDraws := rfl

/-! ### setInput -/

@[simp] theorem setInput_pending (i : Fin 24) (x : VisitorInput) : (s.setInput i x).pending = s.pending := rfl
@[simp] theorem setInput_showTime (i : Fin 24) (x : VisitorInput) : (s.setInput i x).showTime = s.showTime := rfl
@[simp] theorem setInput_resetLow (i : Fin 24) (x : VisitorInput) : (s.setInput i x).resetLow = s.resetLow := rfl
@[simp] theorem setInput_lines (i : Fin 24) (x : VisitorInput) : (s.setInput i x).lines = s.lines := rfl
@[simp] theorem setInput_up (i : Fin 24) (x : VisitorInput) : (s.setInput i x).up = s.up := rfl
@[simp] theorem setInput_arb (i : Fin 24) (x : VisitorInput) : (s.setInput i x).arb = s.arb := rfl
@[simp] theorem setInput_port (i : Fin 24) (x : VisitorInput) : (s.setInput i x).port = s.port := rfl
@[simp] theorem setInput_disp (i : Fin 24) (x : VisitorInput) : (s.setInput i x).disp = s.disp := rfl
@[simp] theorem setInput_dir (i : Fin 24) (x : VisitorInput) : (s.setInput i x).dir = s.dir := rfl
@[simp] theorem setInput_cue (i : Fin 24) (x : VisitorInput) : (s.setInput i x).cue = s.cue := rfl
@[simp] theorem setInput_report (i : Fin 24) (x : VisitorInput) : (s.setInput i x).report = s.report := rfl
@[simp] theorem setInput_zones (i : Fin 24) (x : VisitorInput) : (s.setInput i x).zones = s.zones := rfl
@[simp] theorem setInput_req (i : Fin 24) (x : VisitorInput) : (s.setInput i x).req = s.req := rfl
@[simp] theorem setInput_slots (i : Fin 24) (x : VisitorInput) : (s.setInput i x).slots = s.slots := rfl
@[simp] theorem setInput_lamp (i : Fin 24) (x : VisitorInput) : (s.setInput i x).lamp = s.lamp := rfl
@[simp] theorem setInput_voices (i : Fin 24) (x : VisitorInput) : (s.setInput i x).voices = s.voices := rfl
@[simp] theorem setInput_sampleCount (i : Fin 24) (x : VisitorInput) : (s.setInput i x).sampleCount = s.sampleCount := rfl
@[simp] theorem setInput_axes (i : Fin 24) (x : VisitorInput) : (s.setInput i x).axes = s.axes := rfl
@[simp] theorem setInput_pins (i : Fin 24) (x : VisitorInput) : (s.setInput i x).pins = s.pins := rfl
@[simp] theorem setInput_fault (i : Fin 24) (x : VisitorInput) : (s.setInput i x).fault = s.fault := rfl
@[simp] theorem setInput_ctl (i : Fin 24) (x : VisitorInput) : (s.setInput i x).ctl = s.ctl := rfl
@[simp] theorem setInput_freeDraws (i : Fin 24) (x : VisitorInput) : (s.setInput i x).freeDraws = s.freeDraws := rfl

/-! ### setVoice -/

@[simp] theorem setVoice_pending (v : Fin 8) (x : Voice) : (s.setVoice v x).pending = s.pending := rfl
@[simp] theorem setVoice_showTime (v : Fin 8) (x : Voice) : (s.setVoice v x).showTime = s.showTime := rfl
@[simp] theorem setVoice_resetLow (v : Fin 8) (x : Voice) : (s.setVoice v x).resetLow = s.resetLow := rfl
@[simp] theorem setVoice_lines (v : Fin 8) (x : Voice) : (s.setVoice v x).lines = s.lines := rfl
@[simp] theorem setVoice_up (v : Fin 8) (x : Voice) : (s.setVoice v x).up = s.up := rfl
@[simp] theorem setVoice_arb (v : Fin 8) (x : Voice) : (s.setVoice v x).arb = s.arb := rfl
@[simp] theorem setVoice_port (v : Fin 8) (x : Voice) : (s.setVoice v x).port = s.port := rfl
@[simp] theorem setVoice_disp (v : Fin 8) (x : Voice) : (s.setVoice v x).disp = s.disp := rfl
@[simp] theorem setVoice_dir (v : Fin 8) (x : Voice) : (s.setVoice v x).dir = s.dir := rfl
@[simp] theorem setVoice_cue (v : Fin 8) (x : Voice) : (s.setVoice v x).cue = s.cue := rfl
@[simp] theorem setVoice_report (v : Fin 8) (x : Voice) : (s.setVoice v x).report = s.report := rfl
@[simp] theorem setVoice_zones (v : Fin 8) (x : Voice) : (s.setVoice v x).zones = s.zones := rfl
@[simp] theorem setVoice_inputs (v : Fin 8) (x : Voice) : (s.setVoice v x).inputs = s.inputs := rfl
@[simp] theorem setVoice_req (v : Fin 8) (x : Voice) : (s.setVoice v x).req = s.req := rfl
@[simp] theorem setVoice_slots (v : Fin 8) (x : Voice) : (s.setVoice v x).slots = s.slots := rfl
@[simp] theorem setVoice_lamp (v : Fin 8) (x : Voice) : (s.setVoice v x).lamp = s.lamp := rfl
@[simp] theorem setVoice_sampleCount (v : Fin 8) (x : Voice) : (s.setVoice v x).sampleCount = s.sampleCount := rfl
@[simp] theorem setVoice_axes (v : Fin 8) (x : Voice) : (s.setVoice v x).axes = s.axes := rfl
@[simp] theorem setVoice_pins (v : Fin 8) (x : Voice) : (s.setVoice v x).pins = s.pins := rfl
@[simp] theorem setVoice_fault (v : Fin 8) (x : Voice) : (s.setVoice v x).fault = s.fault := rfl
@[simp] theorem setVoice_ctl (v : Fin 8) (x : Voice) : (s.setVoice v x).ctl = s.ctl := rfl
@[simp] theorem setVoice_freeDraws (v : Fin 8) (x : Voice) : (s.setVoice v x).freeDraws = s.freeDraws := rfl

/-! ### setAxis -/

@[simp] theorem setAxis_pending (n : Fin 12) (x : Axis) : (s.setAxis n x).pending = s.pending := rfl
@[simp] theorem setAxis_showTime (n : Fin 12) (x : Axis) : (s.setAxis n x).showTime = s.showTime := rfl
@[simp] theorem setAxis_resetLow (n : Fin 12) (x : Axis) : (s.setAxis n x).resetLow = s.resetLow := rfl
@[simp] theorem setAxis_lines (n : Fin 12) (x : Axis) : (s.setAxis n x).lines = s.lines := rfl
@[simp] theorem setAxis_up (n : Fin 12) (x : Axis) : (s.setAxis n x).up = s.up := rfl
@[simp] theorem setAxis_arb (n : Fin 12) (x : Axis) : (s.setAxis n x).arb = s.arb := rfl
@[simp] theorem setAxis_port (n : Fin 12) (x : Axis) : (s.setAxis n x).port = s.port := rfl
@[simp] theorem setAxis_disp (n : Fin 12) (x : Axis) : (s.setAxis n x).disp = s.disp := rfl
@[simp] theorem setAxis_dir (n : Fin 12) (x : Axis) : (s.setAxis n x).dir = s.dir := rfl
@[simp] theorem setAxis_cue (n : Fin 12) (x : Axis) : (s.setAxis n x).cue = s.cue := rfl
@[simp] theorem setAxis_report (n : Fin 12) (x : Axis) : (s.setAxis n x).report = s.report := rfl
@[simp] theorem setAxis_zones (n : Fin 12) (x : Axis) : (s.setAxis n x).zones = s.zones := rfl
@[simp] theorem setAxis_inputs (n : Fin 12) (x : Axis) : (s.setAxis n x).inputs = s.inputs := rfl
@[simp] theorem setAxis_req (n : Fin 12) (x : Axis) : (s.setAxis n x).req = s.req := rfl
@[simp] theorem setAxis_slots (n : Fin 12) (x : Axis) : (s.setAxis n x).slots = s.slots := rfl
@[simp] theorem setAxis_lamp (n : Fin 12) (x : Axis) : (s.setAxis n x).lamp = s.lamp := rfl
@[simp] theorem setAxis_voices (n : Fin 12) (x : Axis) : (s.setAxis n x).voices = s.voices := rfl
@[simp] theorem setAxis_sampleCount (n : Fin 12) (x : Axis) : (s.setAxis n x).sampleCount = s.sampleCount := rfl
@[simp] theorem setAxis_pins (n : Fin 12) (x : Axis) : (s.setAxis n x).pins = s.pins := rfl
@[simp] theorem setAxis_fault (n : Fin 12) (x : Axis) : (s.setAxis n x).fault = s.fault := rfl
@[simp] theorem setAxis_ctl (n : Fin 12) (x : Axis) : (s.setAxis n x).ctl = s.ctl := rfl
@[simp] theorem setAxis_freeDraws (n : Fin 12) (x : Axis) : (s.setAxis n x).freeDraws = s.freeDraws := rfl

/-! ### setChannel -/

@[simp] theorem setChannel_pending (c : Fin 128) (x : Channel) : (s.setChannel c x).pending = s.pending := rfl
@[simp] theorem setChannel_showTime (c : Fin 128) (x : Channel) : (s.setChannel c x).showTime = s.showTime := rfl
@[simp] theorem setChannel_resetLow (c : Fin 128) (x : Channel) : (s.setChannel c x).resetLow = s.resetLow := rfl
@[simp] theorem setChannel_lines (c : Fin 128) (x : Channel) : (s.setChannel c x).lines = s.lines := rfl
@[simp] theorem setChannel_up (c : Fin 128) (x : Channel) : (s.setChannel c x).up = s.up := rfl
@[simp] theorem setChannel_arb (c : Fin 128) (x : Channel) : (s.setChannel c x).arb = s.arb := rfl
@[simp] theorem setChannel_port (c : Fin 128) (x : Channel) : (s.setChannel c x).port = s.port := rfl
@[simp] theorem setChannel_disp (c : Fin 128) (x : Channel) : (s.setChannel c x).disp = s.disp := rfl
@[simp] theorem setChannel_dir (c : Fin 128) (x : Channel) : (s.setChannel c x).dir = s.dir := rfl
@[simp] theorem setChannel_cue (c : Fin 128) (x : Channel) : (s.setChannel c x).cue = s.cue := rfl
@[simp] theorem setChannel_report (c : Fin 128) (x : Channel) : (s.setChannel c x).report = s.report := rfl
@[simp] theorem setChannel_zones (c : Fin 128) (x : Channel) : (s.setChannel c x).zones = s.zones := rfl
@[simp] theorem setChannel_inputs (c : Fin 128) (x : Channel) : (s.setChannel c x).inputs = s.inputs := rfl
@[simp] theorem setChannel_req (c : Fin 128) (x : Channel) : (s.setChannel c x).req = s.req := rfl
@[simp] theorem setChannel_slots (c : Fin 128) (x : Channel) : (s.setChannel c x).slots = s.slots := rfl
@[simp] theorem setChannel_voices (c : Fin 128) (x : Channel) : (s.setChannel c x).voices = s.voices := rfl
@[simp] theorem setChannel_sampleCount (c : Fin 128) (x : Channel) : (s.setChannel c x).sampleCount = s.sampleCount := rfl
@[simp] theorem setChannel_axes (c : Fin 128) (x : Channel) : (s.setChannel c x).axes = s.axes := rfl
@[simp] theorem setChannel_pins (c : Fin 128) (x : Channel) : (s.setChannel c x).pins = s.pins := rfl
@[simp] theorem setChannel_fault (c : Fin 128) (x : Channel) : (s.setChannel c x).fault = s.fault := rfl
@[simp] theorem setChannel_ctl (c : Fin 128) (x : Channel) : (s.setChannel c x).ctl = s.ctl := rfl
@[simp] theorem setChannel_freeDraws (c : Fin 128) (x : Channel) : (s.setChannel c x).freeDraws = s.freeDraws := rfl

/-! ### mapChannels -/

@[simp] theorem mapChannels_pending (f : Channel → Channel) : (s.mapChannels f).pending = s.pending := rfl
@[simp] theorem mapChannels_showTime (f : Channel → Channel) : (s.mapChannels f).showTime = s.showTime := rfl
@[simp] theorem mapChannels_resetLow (f : Channel → Channel) : (s.mapChannels f).resetLow = s.resetLow := rfl
@[simp] theorem mapChannels_lines (f : Channel → Channel) : (s.mapChannels f).lines = s.lines := rfl
@[simp] theorem mapChannels_up (f : Channel → Channel) : (s.mapChannels f).up = s.up := rfl
@[simp] theorem mapChannels_arb (f : Channel → Channel) : (s.mapChannels f).arb = s.arb := rfl
@[simp] theorem mapChannels_port (f : Channel → Channel) : (s.mapChannels f).port = s.port := rfl
@[simp] theorem mapChannels_disp (f : Channel → Channel) : (s.mapChannels f).disp = s.disp := rfl
@[simp] theorem mapChannels_dir (f : Channel → Channel) : (s.mapChannels f).dir = s.dir := rfl
@[simp] theorem mapChannels_cue (f : Channel → Channel) : (s.mapChannels f).cue = s.cue := rfl
@[simp] theorem mapChannels_report (f : Channel → Channel) : (s.mapChannels f).report = s.report := rfl
@[simp] theorem mapChannels_zones (f : Channel → Channel) : (s.mapChannels f).zones = s.zones := rfl
@[simp] theorem mapChannels_inputs (f : Channel → Channel) : (s.mapChannels f).inputs = s.inputs := rfl
@[simp] theorem mapChannels_req (f : Channel → Channel) : (s.mapChannels f).req = s.req := rfl
@[simp] theorem mapChannels_slots (f : Channel → Channel) : (s.mapChannels f).slots = s.slots := rfl
@[simp] theorem mapChannels_voices (f : Channel → Channel) : (s.mapChannels f).voices = s.voices := rfl
@[simp] theorem mapChannels_sampleCount (f : Channel → Channel) : (s.mapChannels f).sampleCount = s.sampleCount := rfl
@[simp] theorem mapChannels_axes (f : Channel → Channel) : (s.mapChannels f).axes = s.axes := rfl
@[simp] theorem mapChannels_pins (f : Channel → Channel) : (s.mapChannels f).pins = s.pins := rfl
@[simp] theorem mapChannels_fault (f : Channel → Channel) : (s.mapChannels f).fault = s.fault := rfl
@[simp] theorem mapChannels_ctl (f : Channel → Channel) : (s.mapChannels f).ctl = s.ctl := rfl
@[simp] theorem mapChannels_freeDraws (f : Channel → Channel) : (s.mapChannels f).freeDraws = s.freeDraws := rfl

/-! ### mapZones -/

@[simp] theorem mapZones_pending (m : Nat) (f : Zone → Zone) : (s.mapZones m f).pending = s.pending := rfl
@[simp] theorem mapZones_showTime (m : Nat) (f : Zone → Zone) : (s.mapZones m f).showTime = s.showTime := rfl
@[simp] theorem mapZones_resetLow (m : Nat) (f : Zone → Zone) : (s.mapZones m f).resetLow = s.resetLow := rfl
@[simp] theorem mapZones_lines (m : Nat) (f : Zone → Zone) : (s.mapZones m f).lines = s.lines := rfl
@[simp] theorem mapZones_up (m : Nat) (f : Zone → Zone) : (s.mapZones m f).up = s.up := rfl
@[simp] theorem mapZones_arb (m : Nat) (f : Zone → Zone) : (s.mapZones m f).arb = s.arb := rfl
@[simp] theorem mapZones_port (m : Nat) (f : Zone → Zone) : (s.mapZones m f).port = s.port := rfl
@[simp] theorem mapZones_disp (m : Nat) (f : Zone → Zone) : (s.mapZones m f).disp = s.disp := rfl
@[simp] theorem mapZones_dir (m : Nat) (f : Zone → Zone) : (s.mapZones m f).dir = s.dir := rfl
@[simp] theorem mapZones_cue (m : Nat) (f : Zone → Zone) : (s.mapZones m f).cue = s.cue := rfl
@[simp] theorem mapZones_report (m : Nat) (f : Zone → Zone) : (s.mapZones m f).report = s.report := rfl
@[simp] theorem mapZones_inputs (m : Nat) (f : Zone → Zone) : (s.mapZones m f).inputs = s.inputs := rfl
@[simp] theorem mapZones_req (m : Nat) (f : Zone → Zone) : (s.mapZones m f).req = s.req := rfl
@[simp] theorem mapZones_slots (m : Nat) (f : Zone → Zone) : (s.mapZones m f).slots = s.slots := rfl
@[simp] theorem mapZones_lamp (m : Nat) (f : Zone → Zone) : (s.mapZones m f).lamp = s.lamp := rfl
@[simp] theorem mapZones_voices (m : Nat) (f : Zone → Zone) : (s.mapZones m f).voices = s.voices := rfl
@[simp] theorem mapZones_sampleCount (m : Nat) (f : Zone → Zone) : (s.mapZones m f).sampleCount = s.sampleCount := rfl
@[simp] theorem mapZones_axes (m : Nat) (f : Zone → Zone) : (s.mapZones m f).axes = s.axes := rfl
@[simp] theorem mapZones_pins (m : Nat) (f : Zone → Zone) : (s.mapZones m f).pins = s.pins := rfl
@[simp] theorem mapZones_fault (m : Nat) (f : Zone → Zone) : (s.mapZones m f).fault = s.fault := rfl
@[simp] theorem mapZones_ctl (m : Nat) (f : Zone → Zone) : (s.mapZones m f).ctl = s.ctl := rfl
@[simp] theorem mapZones_freeDraws (m : Nat) (f : Zone → Zone) : (s.mapZones m f).freeDraws = s.freeDraws := rfl

/-! ### setPin -/

@[simp] theorem setPin_pending (i : Fin 16) (p : Option Pin) : (s.setPin i p).pending = s.pending := rfl
@[simp] theorem setPin_showTime (i : Fin 16) (p : Option Pin) : (s.setPin i p).showTime = s.showTime := rfl
@[simp] theorem setPin_resetLow (i : Fin 16) (p : Option Pin) : (s.setPin i p).resetLow = s.resetLow := rfl
@[simp] theorem setPin_lines (i : Fin 16) (p : Option Pin) : (s.setPin i p).lines = s.lines := rfl
@[simp] theorem setPin_up (i : Fin 16) (p : Option Pin) : (s.setPin i p).up = s.up := rfl
@[simp] theorem setPin_arb (i : Fin 16) (p : Option Pin) : (s.setPin i p).arb = s.arb := rfl
@[simp] theorem setPin_port (i : Fin 16) (p : Option Pin) : (s.setPin i p).port = s.port := rfl
@[simp] theorem setPin_disp (i : Fin 16) (p : Option Pin) : (s.setPin i p).disp = s.disp := rfl
@[simp] theorem setPin_dir (i : Fin 16) (p : Option Pin) : (s.setPin i p).dir = s.dir := rfl
@[simp] theorem setPin_cue (i : Fin 16) (p : Option Pin) : (s.setPin i p).cue = s.cue := rfl
@[simp] theorem setPin_report (i : Fin 16) (p : Option Pin) : (s.setPin i p).report = s.report := rfl
@[simp] theorem setPin_zones (i : Fin 16) (p : Option Pin) : (s.setPin i p).zones = s.zones := rfl
@[simp] theorem setPin_inputs (i : Fin 16) (p : Option Pin) : (s.setPin i p).inputs = s.inputs := rfl
@[simp] theorem setPin_req (i : Fin 16) (p : Option Pin) : (s.setPin i p).req = s.req := rfl
@[simp] theorem setPin_slots (i : Fin 16) (p : Option Pin) : (s.setPin i p).slots = s.slots := rfl
@[simp] theorem setPin_lamp (i : Fin 16) (p : Option Pin) : (s.setPin i p).lamp = s.lamp := rfl
@[simp] theorem setPin_voices (i : Fin 16) (p : Option Pin) : (s.setPin i p).voices = s.voices := rfl
@[simp] theorem setPin_sampleCount (i : Fin 16) (p : Option Pin) : (s.setPin i p).sampleCount = s.sampleCount := rfl
@[simp] theorem setPin_axes (i : Fin 16) (p : Option Pin) : (s.setPin i p).axes = s.axes := rfl
@[simp] theorem setPin_fault (i : Fin 16) (p : Option Pin) : (s.setPin i p).fault = s.fault := rfl
@[simp] theorem setPin_ctl (i : Fin 16) (p : Option Pin) : (s.setPin i p).ctl = s.ctl := rfl
@[simp] theorem setPin_freeDraws (i : Fin 16) (p : Option Pin) : (s.setPin i p).freeDraws = s.freeDraws := rfl

/-! ### setQueue -/

@[simp] theorem setQueue_pending (q : List Request) : (s.setQueue q).pending = s.pending := rfl
@[simp] theorem setQueue_showTime (q : List Request) : (s.setQueue q).showTime = s.showTime := rfl
@[simp] theorem setQueue_resetLow (q : List Request) : (s.setQueue q).resetLow = s.resetLow := rfl
@[simp] theorem setQueue_lines (q : List Request) : (s.setQueue q).lines = s.lines := rfl
@[simp] theorem setQueue_up (q : List Request) : (s.setQueue q).up = s.up := rfl
@[simp] theorem setQueue_arb (q : List Request) : (s.setQueue q).arb = s.arb := rfl
@[simp] theorem setQueue_port (q : List Request) : (s.setQueue q).port = s.port := rfl
@[simp] theorem setQueue_disp (q : List Request) : (s.setQueue q).disp = s.disp := rfl
@[simp] theorem setQueue_dir (q : List Request) : (s.setQueue q).dir = s.dir := rfl
@[simp] theorem setQueue_cue (q : List Request) : (s.setQueue q).cue = s.cue := rfl
@[simp] theorem setQueue_report (q : List Request) : (s.setQueue q).report = s.report := rfl
@[simp] theorem setQueue_zones (q : List Request) : (s.setQueue q).zones = s.zones := rfl
@[simp] theorem setQueue_inputs (q : List Request) : (s.setQueue q).inputs = s.inputs := rfl
@[simp] theorem setQueue_slots (q : List Request) : (s.setQueue q).slots = s.slots := rfl
@[simp] theorem setQueue_lamp (q : List Request) : (s.setQueue q).lamp = s.lamp := rfl
@[simp] theorem setQueue_voices (q : List Request) : (s.setQueue q).voices = s.voices := rfl
@[simp] theorem setQueue_sampleCount (q : List Request) : (s.setQueue q).sampleCount = s.sampleCount := rfl
@[simp] theorem setQueue_axes (q : List Request) : (s.setQueue q).axes = s.axes := rfl
@[simp] theorem setQueue_pins (q : List Request) : (s.setQueue q).pins = s.pins := rfl
@[simp] theorem setQueue_fault (q : List Request) : (s.setQueue q).fault = s.fault := rfl
@[simp] theorem setQueue_ctl (q : List Request) : (s.setQueue q).ctl = s.ctl := rfl
@[simp] theorem setQueue_freeDraws (q : List Request) : (s.setQueue q).freeDraws = s.freeDraws := rfl

/-! ### setBank -/

@[simp] theorem setBank_pending (b : Bank) (r : BankRecord) : (s.setBank b r).pending = s.pending := rfl
@[simp] theorem setBank_showTime (b : Bank) (r : BankRecord) : (s.setBank b r).showTime = s.showTime := rfl
@[simp] theorem setBank_resetLow (b : Bank) (r : BankRecord) : (s.setBank b r).resetLow = s.resetLow := rfl
@[simp] theorem setBank_lines (b : Bank) (r : BankRecord) : (s.setBank b r).lines = s.lines := rfl
@[simp] theorem setBank_up (b : Bank) (r : BankRecord) : (s.setBank b r).up = s.up := rfl
@[simp] theorem setBank_arb (b : Bank) (r : BankRecord) : (s.setBank b r).arb = s.arb := rfl
@[simp] theorem setBank_port (b : Bank) (r : BankRecord) : (s.setBank b r).port = s.port := rfl
@[simp] theorem setBank_disp (b : Bank) (r : BankRecord) : (s.setBank b r).disp = s.disp := rfl
@[simp] theorem setBank_dir (b : Bank) (r : BankRecord) : (s.setBank b r).dir = s.dir := rfl
@[simp] theorem setBank_cue (b : Bank) (r : BankRecord) : (s.setBank b r).cue = s.cue := rfl
@[simp] theorem setBank_report (b : Bank) (r : BankRecord) : (s.setBank b r).report = s.report := rfl
@[simp] theorem setBank_zones (b : Bank) (r : BankRecord) : (s.setBank b r).zones = s.zones := rfl
@[simp] theorem setBank_inputs (b : Bank) (r : BankRecord) : (s.setBank b r).inputs = s.inputs := rfl
@[simp] theorem setBank_req (b : Bank) (r : BankRecord) : (s.setBank b r).req = s.req := rfl
@[simp] theorem setBank_slots (b : Bank) (r : BankRecord) : (s.setBank b r).slots = s.slots := rfl
@[simp] theorem setBank_lamp (b : Bank) (r : BankRecord) : (s.setBank b r).lamp = s.lamp := rfl
@[simp] theorem setBank_voices (b : Bank) (r : BankRecord) : (s.setBank b r).voices = s.voices := rfl
@[simp] theorem setBank_sampleCount (b : Bank) (r : BankRecord) : (s.setBank b r).sampleCount = s.sampleCount := rfl
@[simp] theorem setBank_axes (b : Bank) (r : BankRecord) : (s.setBank b r).axes = s.axes := rfl
@[simp] theorem setBank_pins (b : Bank) (r : BankRecord) : (s.setBank b r).pins = s.pins := rfl
@[simp] theorem setBank_ctl (b : Bank) (r : BankRecord) : (s.setBank b r).ctl = s.ctl := rfl
@[simp] theorem setBank_freeDraws (b : Bank) (r : BankRecord) : (s.setBank b r).freeDraws = s.freeDraws := rfl

/-! ### markDirty -/

@[simp] theorem markDirty_pending : (s.markDirty).pending = s.pending := rfl
@[simp] theorem markDirty_showTime : (s.markDirty).showTime = s.showTime := rfl
@[simp] theorem markDirty_resetLow : (s.markDirty).resetLow = s.resetLow := rfl
@[simp] theorem markDirty_lines : (s.markDirty).lines = s.lines := rfl
@[simp] theorem markDirty_up : (s.markDirty).up = s.up := rfl
@[simp] theorem markDirty_arb : (s.markDirty).arb = s.arb := rfl
@[simp] theorem markDirty_port : (s.markDirty).port = s.port := rfl
@[simp] theorem markDirty_disp : (s.markDirty).disp = s.disp := rfl
@[simp] theorem markDirty_dir : (s.markDirty).dir = s.dir := rfl
@[simp] theorem markDirty_cue : (s.markDirty).cue = s.cue := rfl
@[simp] theorem markDirty_report : (s.markDirty).report = s.report := rfl
@[simp] theorem markDirty_zones : (s.markDirty).zones = s.zones := rfl
@[simp] theorem markDirty_inputs : (s.markDirty).inputs = s.inputs := rfl
@[simp] theorem markDirty_req : (s.markDirty).req = s.req := rfl
@[simp] theorem markDirty_slots : (s.markDirty).slots = s.slots := rfl
@[simp] theorem markDirty_lamp : (s.markDirty).lamp = s.lamp := rfl
@[simp] theorem markDirty_voices : (s.markDirty).voices = s.voices := rfl
@[simp] theorem markDirty_sampleCount : (s.markDirty).sampleCount = s.sampleCount := rfl
@[simp] theorem markDirty_axes : (s.markDirty).axes = s.axes := rfl
@[simp] theorem markDirty_pins : (s.markDirty).pins = s.pins := rfl
@[simp] theorem markDirty_ctl : (s.markDirty).ctl = s.ctl := rfl
@[simp] theorem markDirty_freeDraws : (s.markDirty).freeDraws = s.freeDraws := rfl

/-! ### produce -/

@[simp] theorem produce_pending (r : Record) : (s.produce r).pending = s.pending := rfl
@[simp] theorem produce_showTime (r : Record) : (s.produce r).showTime = s.showTime := rfl
@[simp] theorem produce_resetLow (r : Record) : (s.produce r).resetLow = s.resetLow := rfl
@[simp] theorem produce_lines (r : Record) : (s.produce r).lines = s.lines := rfl
@[simp] theorem produce_up (r : Record) : (s.produce r).up = s.up := rfl
@[simp] theorem produce_arb (r : Record) : (s.produce r).arb = s.arb := rfl
@[simp] theorem produce_port (r : Record) : (s.produce r).port = s.port := rfl
@[simp] theorem produce_disp (r : Record) : (s.produce r).disp = s.disp := rfl
@[simp] theorem produce_dir (r : Record) : (s.produce r).dir = s.dir := rfl
@[simp] theorem produce_cue (r : Record) : (s.produce r).cue = s.cue := rfl
@[simp] theorem produce_zones (r : Record) : (s.produce r).zones = s.zones := rfl
@[simp] theorem produce_inputs (r : Record) : (s.produce r).inputs = s.inputs := rfl
@[simp] theorem produce_req (r : Record) : (s.produce r).req = s.req := rfl
@[simp] theorem produce_slots (r : Record) : (s.produce r).slots = s.slots := rfl
@[simp] theorem produce_lamp (r : Record) : (s.produce r).lamp = s.lamp := rfl
@[simp] theorem produce_voices (r : Record) : (s.produce r).voices = s.voices := rfl
@[simp] theorem produce_sampleCount (r : Record) : (s.produce r).sampleCount = s.sampleCount := rfl
@[simp] theorem produce_axes (r : Record) : (s.produce r).axes = s.axes := rfl
@[simp] theorem produce_pins (r : Record) : (s.produce r).pins = s.pins := rfl
@[simp] theorem produce_fault (r : Record) : (s.produce r).fault = s.fault := rfl
@[simp] theorem produce_ctl (r : Record) : (s.produce r).ctl = s.ctl := rfl
@[simp] theorem produce_freeDraws (r : Record) : (s.produce r).freeDraws = s.freeDraws := rfl

/-! ### lose -/

@[simp] theorem lose_pending (n : Nat) : (s.lose n).pending = s.pending := rfl
@[simp] theorem lose_showTime (n : Nat) : (s.lose n).showTime = s.showTime := rfl
@[simp] theorem lose_resetLow (n : Nat) : (s.lose n).resetLow = s.resetLow := rfl
@[simp] theorem lose_lines (n : Nat) : (s.lose n).lines = s.lines := rfl
@[simp] theorem lose_up (n : Nat) : (s.lose n).up = s.up := rfl
@[simp] theorem lose_arb (n : Nat) : (s.lose n).arb = s.arb := rfl
@[simp] theorem lose_port (n : Nat) : (s.lose n).port = s.port := rfl
@[simp] theorem lose_disp (n : Nat) : (s.lose n).disp = s.disp := rfl
@[simp] theorem lose_dir (n : Nat) : (s.lose n).dir = s.dir := rfl
@[simp] theorem lose_cue (n : Nat) : (s.lose n).cue = s.cue := rfl
@[simp] theorem lose_zones (n : Nat) : (s.lose n).zones = s.zones := rfl
@[simp] theorem lose_inputs (n : Nat) : (s.lose n).inputs = s.inputs := rfl
@[simp] theorem lose_req (n : Nat) : (s.lose n).req = s.req := rfl
@[simp] theorem lose_slots (n : Nat) : (s.lose n).slots = s.slots := rfl
@[simp] theorem lose_lamp (n : Nat) : (s.lose n).lamp = s.lamp := rfl
@[simp] theorem lose_voices (n : Nat) : (s.lose n).voices = s.voices := rfl
@[simp] theorem lose_sampleCount (n : Nat) : (s.lose n).sampleCount = s.sampleCount := rfl
@[simp] theorem lose_axes (n : Nat) : (s.lose n).axes = s.axes := rfl
@[simp] theorem lose_pins (n : Nat) : (s.lose n).pins = s.pins := rfl
@[simp] theorem lose_fault (n : Nat) : (s.lose n).fault = s.fault := rfl
@[simp] theorem lose_ctl (n : Nat) : (s.lose n).ctl = s.ctl := rfl
@[simp] theorem lose_freeDraws (n : Nat) : (s.lose n).freeDraws = s.freeDraws := rfl

/-! ### logMarking -/

@[simp] theorem logMarking_pending (m : Bool) (c : FaultCode) (d : List Nat) : (s.logMarking m c d).pending = s.pending := rfl
@[simp] theorem logMarking_showTime (m : Bool) (c : FaultCode) (d : List Nat) : (s.logMarking m c d).showTime = s.showTime := rfl
@[simp] theorem logMarking_resetLow (m : Bool) (c : FaultCode) (d : List Nat) : (s.logMarking m c d).resetLow = s.resetLow := rfl
@[simp] theorem logMarking_lines (m : Bool) (c : FaultCode) (d : List Nat) : (s.logMarking m c d).lines = s.lines := rfl
@[simp] theorem logMarking_up (m : Bool) (c : FaultCode) (d : List Nat) : (s.logMarking m c d).up = s.up := rfl
@[simp] theorem logMarking_arb (m : Bool) (c : FaultCode) (d : List Nat) : (s.logMarking m c d).arb = s.arb := rfl
@[simp] theorem logMarking_port (m : Bool) (c : FaultCode) (d : List Nat) : (s.logMarking m c d).port = s.port := rfl
@[simp] theorem logMarking_disp (m : Bool) (c : FaultCode) (d : List Nat) : (s.logMarking m c d).disp = s.disp := rfl
@[simp] theorem logMarking_dir (m : Bool) (c : FaultCode) (d : List Nat) : (s.logMarking m c d).dir = s.dir := rfl
@[simp] theorem logMarking_cue (m : Bool) (c : FaultCode) (d : List Nat) : (s.logMarking m c d).cue = s.cue := rfl
@[simp] theorem logMarking_zones (m : Bool) (c : FaultCode) (d : List Nat) : (s.logMarking m c d).zones = s.zones := rfl
@[simp] theorem logMarking_inputs (m : Bool) (c : FaultCode) (d : List Nat) : (s.logMarking m c d).inputs = s.inputs := rfl
@[simp] theorem logMarking_req (m : Bool) (c : FaultCode) (d : List Nat) : (s.logMarking m c d).req = s.req := rfl
@[simp] theorem logMarking_slots (m : Bool) (c : FaultCode) (d : List Nat) : (s.logMarking m c d).slots = s.slots := rfl
@[simp] theorem logMarking_lamp (m : Bool) (c : FaultCode) (d : List Nat) : (s.logMarking m c d).lamp = s.lamp := rfl
@[simp] theorem logMarking_voices (m : Bool) (c : FaultCode) (d : List Nat) : (s.logMarking m c d).voices = s.voices := rfl
@[simp] theorem logMarking_sampleCount (m : Bool) (c : FaultCode) (d : List Nat) : (s.logMarking m c d).sampleCount = s.sampleCount := rfl
@[simp] theorem logMarking_axes (m : Bool) (c : FaultCode) (d : List Nat) : (s.logMarking m c d).axes = s.axes := rfl
@[simp] theorem logMarking_pins (m : Bool) (c : FaultCode) (d : List Nat) : (s.logMarking m c d).pins = s.pins := rfl
@[simp] theorem logMarking_ctl (m : Bool) (c : FaultCode) (d : List Nat) : (s.logMarking m c d).ctl = s.ctl := rfl
@[simp] theorem logMarking_freeDraws (m : Bool) (c : FaultCode) (d : List Nat) : (s.logMarking m c d).freeDraws = s.freeDraws := rfl

/-! ### log -/

@[simp] theorem log_pending (c : FaultCode) (d : List Nat) : (s.log c d).pending = s.pending := rfl
@[simp] theorem log_showTime (c : FaultCode) (d : List Nat) : (s.log c d).showTime = s.showTime := rfl
@[simp] theorem log_resetLow (c : FaultCode) (d : List Nat) : (s.log c d).resetLow = s.resetLow := rfl
@[simp] theorem log_lines (c : FaultCode) (d : List Nat) : (s.log c d).lines = s.lines := rfl
@[simp] theorem log_up (c : FaultCode) (d : List Nat) : (s.log c d).up = s.up := rfl
@[simp] theorem log_arb (c : FaultCode) (d : List Nat) : (s.log c d).arb = s.arb := rfl
@[simp] theorem log_port (c : FaultCode) (d : List Nat) : (s.log c d).port = s.port := rfl
@[simp] theorem log_disp (c : FaultCode) (d : List Nat) : (s.log c d).disp = s.disp := rfl
@[simp] theorem log_dir (c : FaultCode) (d : List Nat) : (s.log c d).dir = s.dir := rfl
@[simp] theorem log_cue (c : FaultCode) (d : List Nat) : (s.log c d).cue = s.cue := rfl
@[simp] theorem log_zones (c : FaultCode) (d : List Nat) : (s.log c d).zones = s.zones := rfl
@[simp] theorem log_inputs (c : FaultCode) (d : List Nat) : (s.log c d).inputs = s.inputs := rfl
@[simp] theorem log_req (c : FaultCode) (d : List Nat) : (s.log c d).req = s.req := rfl
@[simp] theorem log_slots (c : FaultCode) (d : List Nat) : (s.log c d).slots = s.slots := rfl
@[simp] theorem log_lamp (c : FaultCode) (d : List Nat) : (s.log c d).lamp = s.lamp := rfl
@[simp] theorem log_voices (c : FaultCode) (d : List Nat) : (s.log c d).voices = s.voices := rfl
@[simp] theorem log_sampleCount (c : FaultCode) (d : List Nat) : (s.log c d).sampleCount = s.sampleCount := rfl
@[simp] theorem log_axes (c : FaultCode) (d : List Nat) : (s.log c d).axes = s.axes := rfl
@[simp] theorem log_pins (c : FaultCode) (d : List Nat) : (s.log c d).pins = s.pins := rfl
@[simp] theorem log_ctl (c : FaultCode) (d : List Nat) : (s.log c d).ctl = s.ctl := rfl
@[simp] theorem log_freeDraws (c : FaultCode) (d : List Nat) : (s.log c d).freeDraws = s.freeDraws := rfl

/-! ### respond -/

@[simp] theorem respond_pending (r : Response) : (s.respond r).pending = s.pending := rfl
@[simp] theorem respond_showTime (r : Response) : (s.respond r).showTime = s.showTime := rfl
@[simp] theorem respond_resetLow (r : Response) : (s.respond r).resetLow = s.resetLow := rfl
@[simp] theorem respond_lines (r : Response) : (s.respond r).lines = s.lines := rfl
@[simp] theorem respond_arb (r : Response) : (s.respond r).arb = s.arb := rfl
@[simp] theorem respond_port (r : Response) : (s.respond r).port = s.port := rfl
@[simp] theorem respond_disp (r : Response) : (s.respond r).disp = s.disp := rfl
@[simp] theorem respond_dir (r : Response) : (s.respond r).dir = s.dir := rfl
@[simp] theorem respond_cue (r : Response) : (s.respond r).cue = s.cue := rfl
@[simp] theorem respond_report (r : Response) : (s.respond r).report = s.report := rfl
@[simp] theorem respond_zones (r : Response) : (s.respond r).zones = s.zones := rfl
@[simp] theorem respond_inputs (r : Response) : (s.respond r).inputs = s.inputs := rfl
@[simp] theorem respond_req (r : Response) : (s.respond r).req = s.req := rfl
@[simp] theorem respond_slots (r : Response) : (s.respond r).slots = s.slots := rfl
@[simp] theorem respond_lamp (r : Response) : (s.respond r).lamp = s.lamp := rfl
@[simp] theorem respond_voices (r : Response) : (s.respond r).voices = s.voices := rfl
@[simp] theorem respond_sampleCount (r : Response) : (s.respond r).sampleCount = s.sampleCount := rfl
@[simp] theorem respond_axes (r : Response) : (s.respond r).axes = s.axes := rfl
@[simp] theorem respond_pins (r : Response) : (s.respond r).pins = s.pins := rfl
@[simp] theorem respond_fault (r : Response) : (s.respond r).fault = s.fault := rfl
@[simp] theorem respond_ctl (r : Response) : (s.respond r).ctl = s.ctl := rfl
@[simp] theorem respond_freeDraws (r : Response) : (s.respond r).freeDraws = s.freeDraws := rfl

/-! ### freePort -/

@[simp] theorem freePort_pending : (s.freePort).pending = s.pending := rfl
@[simp] theorem freePort_showTime : (s.freePort).showTime = s.showTime := rfl
@[simp] theorem freePort_resetLow : (s.freePort).resetLow = s.resetLow := rfl
@[simp] theorem freePort_lines : (s.freePort).lines = s.lines := rfl
@[simp] theorem freePort_up : (s.freePort).up = s.up := rfl
@[simp] theorem freePort_arb : (s.freePort).arb = s.arb := rfl
@[simp] theorem freePort_disp : (s.freePort).disp = s.disp := rfl
@[simp] theorem freePort_dir : (s.freePort).dir = s.dir := rfl
@[simp] theorem freePort_cue : (s.freePort).cue = s.cue := rfl
@[simp] theorem freePort_report : (s.freePort).report = s.report := rfl
@[simp] theorem freePort_zones : (s.freePort).zones = s.zones := rfl
@[simp] theorem freePort_inputs : (s.freePort).inputs = s.inputs := rfl
@[simp] theorem freePort_req : (s.freePort).req = s.req := rfl
@[simp] theorem freePort_slots : (s.freePort).slots = s.slots := rfl
@[simp] theorem freePort_lamp : (s.freePort).lamp = s.lamp := rfl
@[simp] theorem freePort_voices : (s.freePort).voices = s.voices := rfl
@[simp] theorem freePort_sampleCount : (s.freePort).sampleCount = s.sampleCount := rfl
@[simp] theorem freePort_axes : (s.freePort).axes = s.axes := rfl
@[simp] theorem freePort_pins : (s.freePort).pins = s.pins := rfl
@[simp] theorem freePort_fault : (s.freePort).fault = s.fault := rfl
@[simp] theorem freePort_ctl : (s.freePort).ctl = s.ctl := rfl
@[simp] theorem freePort_freeDraws : (s.freePort).freeDraws = s.freeDraws := rfl

/-! ### discard -/

@[simp] theorem discard_pending (p : Purpose → Bool) : (s.discard p).pending = s.pending := rfl
@[simp] theorem discard_showTime (p : Purpose → Bool) : (s.discard p).showTime = s.showTime := rfl
@[simp] theorem discard_resetLow (p : Purpose → Bool) : (s.discard p).resetLow = s.resetLow := rfl
@[simp] theorem discard_lines (p : Purpose → Bool) : (s.discard p).lines = s.lines := rfl
@[simp] theorem discard_up (p : Purpose → Bool) : (s.discard p).up = s.up := rfl
@[simp] theorem discard_arb (p : Purpose → Bool) : (s.discard p).arb = s.arb := rfl
@[simp] theorem discard_disp (p : Purpose → Bool) : (s.discard p).disp = s.disp := rfl
@[simp] theorem discard_dir (p : Purpose → Bool) : (s.discard p).dir = s.dir := rfl
@[simp] theorem discard_cue (p : Purpose → Bool) : (s.discard p).cue = s.cue := rfl
@[simp] theorem discard_report (p : Purpose → Bool) : (s.discard p).report = s.report := rfl
@[simp] theorem discard_zones (p : Purpose → Bool) : (s.discard p).zones = s.zones := rfl
@[simp] theorem discard_inputs (p : Purpose → Bool) : (s.discard p).inputs = s.inputs := rfl
@[simp] theorem discard_req (p : Purpose → Bool) : (s.discard p).req = s.req := rfl
@[simp] theorem discard_slots (p : Purpose → Bool) : (s.discard p).slots = s.slots := rfl
@[simp] theorem discard_lamp (p : Purpose → Bool) : (s.discard p).lamp = s.lamp := rfl
@[simp] theorem discard_voices (p : Purpose → Bool) : (s.discard p).voices = s.voices := rfl
@[simp] theorem discard_sampleCount (p : Purpose → Bool) : (s.discard p).sampleCount = s.sampleCount := rfl
@[simp] theorem discard_axes (p : Purpose → Bool) : (s.discard p).axes = s.axes := rfl
@[simp] theorem discard_pins (p : Purpose → Bool) : (s.discard p).pins = s.pins := rfl
@[simp] theorem discard_fault (p : Purpose → Bool) : (s.discard p).fault = s.fault := rfl
@[simp] theorem discard_ctl (p : Purpose → Bool) : (s.discard p).ctl = s.ctl := rfl
@[simp] theorem discard_freeDraws (p : Purpose → Bool) : (s.discard p).freeDraws = s.freeDraws := rfl

/-! ### withdrawLookup -/

@[simp] theorem withdrawLookup_pending (w : Looker) : (s.withdrawLookup w).pending = s.pending := rfl
@[simp] theorem withdrawLookup_showTime (w : Looker) : (s.withdrawLookup w).showTime = s.showTime := rfl
@[simp] theorem withdrawLookup_resetLow (w : Looker) : (s.withdrawLookup w).resetLow = s.resetLow := rfl
@[simp] theorem withdrawLookup_lines (w : Looker) : (s.withdrawLookup w).lines = s.lines := rfl
@[simp] theorem withdrawLookup_up (w : Looker) : (s.withdrawLookup w).up = s.up := rfl
@[simp] theorem withdrawLookup_port (w : Looker) : (s.withdrawLookup w).port = s.port := rfl
@[simp] theorem withdrawLookup_disp (w : Looker) : (s.withdrawLookup w).disp = s.disp := rfl
@[simp] theorem withdrawLookup_dir (w : Looker) : (s.withdrawLookup w).dir = s.dir := rfl
@[simp] theorem withdrawLookup_cue (w : Looker) : (s.withdrawLookup w).cue = s.cue := rfl
@[simp] theorem withdrawLookup_report (w : Looker) : (s.withdrawLookup w).report = s.report := rfl
@[simp] theorem withdrawLookup_zones (w : Looker) : (s.withdrawLookup w).zones = s.zones := rfl
@[simp] theorem withdrawLookup_inputs (w : Looker) : (s.withdrawLookup w).inputs = s.inputs := rfl
@[simp] theorem withdrawLookup_req (w : Looker) : (s.withdrawLookup w).req = s.req := rfl
@[simp] theorem withdrawLookup_slots (w : Looker) : (s.withdrawLookup w).slots = s.slots := rfl
@[simp] theorem withdrawLookup_lamp (w : Looker) : (s.withdrawLookup w).lamp = s.lamp := rfl
@[simp] theorem withdrawLookup_voices (w : Looker) : (s.withdrawLookup w).voices = s.voices := rfl
@[simp] theorem withdrawLookup_sampleCount (w : Looker) : (s.withdrawLookup w).sampleCount = s.sampleCount := rfl
@[simp] theorem withdrawLookup_axes (w : Looker) : (s.withdrawLookup w).axes = s.axes := rfl
@[simp] theorem withdrawLookup_pins (w : Looker) : (s.withdrawLookup w).pins = s.pins := rfl
@[simp] theorem withdrawLookup_fault (w : Looker) : (s.withdrawLookup w).fault = s.fault := rfl
@[simp] theorem withdrawLookup_ctl (w : Looker) : (s.withdrawLookup w).ctl = s.ctl := rfl
@[simp] theorem withdrawLookup_freeDraws (w : Looker) : (s.withdrawLookup w).freeDraws = s.freeDraws := rfl

/-! ### withdrawWrite -/

@[simp] theorem withdrawWrite_pending (w : Writer) : (s.withdrawWrite w).pending = s.pending := rfl
@[simp] theorem withdrawWrite_showTime (w : Writer) : (s.withdrawWrite w).showTime = s.showTime := rfl
@[simp] theorem withdrawWrite_resetLow (w : Writer) : (s.withdrawWrite w).resetLow = s.resetLow := rfl
@[simp] theorem withdrawWrite_lines (w : Writer) : (s.withdrawWrite w).lines = s.lines := rfl
@[simp] theorem withdrawWrite_up (w : Writer) : (s.withdrawWrite w).up = s.up := rfl
@[simp] theorem withdrawWrite_port (w : Writer) : (s.withdrawWrite w).port = s.port := rfl
@[simp] theorem withdrawWrite_disp (w : Writer) : (s.withdrawWrite w).disp = s.disp := rfl
@[simp] theorem withdrawWrite_dir (w : Writer) : (s.withdrawWrite w).dir = s.dir := rfl
@[simp] theorem withdrawWrite_cue (w : Writer) : (s.withdrawWrite w).cue = s.cue := rfl
@[simp] theorem withdrawWrite_report (w : Writer) : (s.withdrawWrite w).report = s.report := rfl
@[simp] theorem withdrawWrite_zones (w : Writer) : (s.withdrawWrite w).zones = s.zones := rfl
@[simp] theorem withdrawWrite_inputs (w : Writer) : (s.withdrawWrite w).inputs = s.inputs := rfl
@[simp] theorem withdrawWrite_req (w : Writer) : (s.withdrawWrite w).req = s.req := rfl
@[simp] theorem withdrawWrite_slots (w : Writer) : (s.withdrawWrite w).slots = s.slots := rfl
@[simp] theorem withdrawWrite_lamp (w : Writer) : (s.withdrawWrite w).lamp = s.lamp := rfl
@[simp] theorem withdrawWrite_voices (w : Writer) : (s.withdrawWrite w).voices = s.voices := rfl
@[simp] theorem withdrawWrite_sampleCount (w : Writer) : (s.withdrawWrite w).sampleCount = s.sampleCount := rfl
@[simp] theorem withdrawWrite_axes (w : Writer) : (s.withdrawWrite w).axes = s.axes := rfl
@[simp] theorem withdrawWrite_pins (w : Writer) : (s.withdrawWrite w).pins = s.pins := rfl
@[simp] theorem withdrawWrite_fault (w : Writer) : (s.withdrawWrite w).fault = s.fault := rfl
@[simp] theorem withdrawWrite_ctl (w : Writer) : (s.withdrawWrite w).ctl = s.ctl := rfl
@[simp] theorem withdrawWrite_freeDraws (w : Writer) : (s.withdrawWrite w).freeDraws = s.freeDraws := rfl

/-! ### dropFetch -/

@[simp] theorem dropFetch_pending (k : Fin 8) : (s.dropFetch k).pending = s.pending := rfl
@[simp] theorem dropFetch_showTime (k : Fin 8) : (s.dropFetch k).showTime = s.showTime := rfl
@[simp] theorem dropFetch_resetLow (k : Fin 8) : (s.dropFetch k).resetLow = s.resetLow := rfl
@[simp] theorem dropFetch_lines (k : Fin 8) : (s.dropFetch k).lines = s.lines := rfl
@[simp] theorem dropFetch_up (k : Fin 8) : (s.dropFetch k).up = s.up := rfl
@[simp] theorem dropFetch_disp (k : Fin 8) : (s.dropFetch k).disp = s.disp := rfl
@[simp] theorem dropFetch_dir (k : Fin 8) : (s.dropFetch k).dir = s.dir := rfl
@[simp] theorem dropFetch_cue (k : Fin 8) : (s.dropFetch k).cue = s.cue := rfl
@[simp] theorem dropFetch_report (k : Fin 8) : (s.dropFetch k).report = s.report := rfl
@[simp] theorem dropFetch_zones (k : Fin 8) : (s.dropFetch k).zones = s.zones := rfl
@[simp] theorem dropFetch_inputs (k : Fin 8) : (s.dropFetch k).inputs = s.inputs := rfl
@[simp] theorem dropFetch_req (k : Fin 8) : (s.dropFetch k).req = s.req := rfl
@[simp] theorem dropFetch_slots (k : Fin 8) : (s.dropFetch k).slots = s.slots := rfl
@[simp] theorem dropFetch_lamp (k : Fin 8) : (s.dropFetch k).lamp = s.lamp := rfl
@[simp] theorem dropFetch_voices (k : Fin 8) : (s.dropFetch k).voices = s.voices := rfl
@[simp] theorem dropFetch_sampleCount (k : Fin 8) : (s.dropFetch k).sampleCount = s.sampleCount := rfl
@[simp] theorem dropFetch_axes (k : Fin 8) : (s.dropFetch k).axes = s.axes := rfl
@[simp] theorem dropFetch_pins (k : Fin 8) : (s.dropFetch k).pins = s.pins := rfl
@[simp] theorem dropFetch_fault (k : Fin 8) : (s.dropFetch k).fault = s.fault := rfl
@[simp] theorem dropFetch_ctl (k : Fin 8) : (s.dropFetch k).ctl = s.ctl := rfl
@[simp] theorem dropFetch_freeDraws (k : Fin 8) : (s.dropFetch k).freeDraws = s.freeDraws := rfl

/-! ### dropVoiceRequest -/

@[simp] theorem dropVoiceRequest_pending (v : Fin 8) : (s.dropVoiceRequest v).pending = s.pending := rfl
@[simp] theorem dropVoiceRequest_showTime (v : Fin 8) : (s.dropVoiceRequest v).showTime = s.showTime := rfl
@[simp] theorem dropVoiceRequest_resetLow (v : Fin 8) : (s.dropVoiceRequest v).resetLow = s.resetLow := rfl
@[simp] theorem dropVoiceRequest_lines (v : Fin 8) : (s.dropVoiceRequest v).lines = s.lines := rfl
@[simp] theorem dropVoiceRequest_up (v : Fin 8) : (s.dropVoiceRequest v).up = s.up := rfl
@[simp] theorem dropVoiceRequest_disp (v : Fin 8) : (s.dropVoiceRequest v).disp = s.disp := rfl
@[simp] theorem dropVoiceRequest_dir (v : Fin 8) : (s.dropVoiceRequest v).dir = s.dir := rfl
@[simp] theorem dropVoiceRequest_cue (v : Fin 8) : (s.dropVoiceRequest v).cue = s.cue := rfl
@[simp] theorem dropVoiceRequest_report (v : Fin 8) : (s.dropVoiceRequest v).report = s.report := rfl
@[simp] theorem dropVoiceRequest_zones (v : Fin 8) : (s.dropVoiceRequest v).zones = s.zones := rfl
@[simp] theorem dropVoiceRequest_inputs (v : Fin 8) : (s.dropVoiceRequest v).inputs = s.inputs := rfl
@[simp] theorem dropVoiceRequest_req (v : Fin 8) : (s.dropVoiceRequest v).req = s.req := rfl
@[simp] theorem dropVoiceRequest_slots (v : Fin 8) : (s.dropVoiceRequest v).slots = s.slots := rfl
@[simp] theorem dropVoiceRequest_lamp (v : Fin 8) : (s.dropVoiceRequest v).lamp = s.lamp := rfl
@[simp] theorem dropVoiceRequest_voices (v : Fin 8) : (s.dropVoiceRequest v).voices = s.voices := rfl
@[simp] theorem dropVoiceRequest_sampleCount (v : Fin 8) : (s.dropVoiceRequest v).sampleCount = s.sampleCount := rfl
@[simp] theorem dropVoiceRequest_axes (v : Fin 8) : (s.dropVoiceRequest v).axes = s.axes := rfl
@[simp] theorem dropVoiceRequest_pins (v : Fin 8) : (s.dropVoiceRequest v).pins = s.pins := rfl
@[simp] theorem dropVoiceRequest_fault (v : Fin 8) : (s.dropVoiceRequest v).fault = s.fault := rfl
@[simp] theorem dropVoiceRequest_ctl (v : Fin 8) : (s.dropVoiceRequest v).ctl = s.ctl := rfl
@[simp] theorem dropVoiceRequest_freeDraws (v : Fin 8) : (s.dropVoiceRequest v).freeDraws = s.freeDraws := rfl

end Fields

/-! ### What an update makes of its field -/

section Read

variable (s : State)

@[simp] theorem slot_setSlot (j k : Fin 8) (x : Slot) : (s.setSlot k x).slot j = if k = j then x else s.slot j :=
  put_get _ _ _ _

@[simp] theorem zone_setZone (y z : Fin 8) (x : Zone) : (s.setZone z x).zone y = if z = y then x else s.zone y :=
  put_get _ _ _ _

@[simp] theorem input_setInput (i j : Fin 24) (x : VisitorInput) :
    (s.setInput i x).input j = if i = j then x else s.input j := put_get _ _ _ _

@[simp] theorem voice_setVoice (v w : Fin 8) (x : Voice) : (s.setVoice v x).voice w = if v = w then x else s.voice w :=
  put_get _ _ _ _

@[simp] theorem axis_setAxis (n m : Fin 12) (x : Axis) : (s.setAxis n x).axis m = if n = m then x else s.axis m :=
  put_get _ _ _ _

@[simp] theorem channel_setChannel (c d : Fin 128) (x : Channel) :
    (s.setChannel c x).channel d = if c = d then x else s.channel d := put_get _ _ _ _

@[simp] theorem channel_mapChannels (c : Fin 128) (f : Channel → Channel) :
    (s.mapChannels f).channel c = f (s.channel c) := tabulate_get _ _

@[simp] theorem zone_mapZones (z : Fin 8) (m : Nat) (f : Zone → Zone) :
    (s.mapZones m f).zone z = if hasMember m z.val then f (s.zone z) else s.zone z := tabulate_get _ _

@[simp] theorem pins_setPin (i j : Fin 16) (p : Option Pin) :
    (s.setPin i p).pins.get j = if i = j then p else s.pins.get j := put_get _ _ _ _

@[simp] theorem queue_setQueue (q : List Request) : (s.setQueue q).req.queue = q := rfl

@[simp] theorem report_produce (r : Record) : (s.produce r).report = s.report.joined ⟨r, s.showTime⟩ := rfl

@[simp] theorem report_lose (n : Nat) : (s.lose n).report = s.report.losing n := rfl

@[simp] theorem report_log (c : FaultCode) (d : List Nat) : (s.log c d).report = s.reportFault c d := rfl

@[simp] theorem up_respond (r : Response) : (s.respond r).up = ⟨none, some r⟩ := rfl

@[simp] theorem port_freePort : s.freePort.port = none := rfl

@[simp] theorem lamp_setChannel_house (c : Fin 128) (x : Channel) :
    (s.setChannel c x).lamp.houseLights = s.lamp.houseLights := rfl

@[simp] theorem lamp_mapChannels_house (f : Channel → Channel) :
    (s.mapChannels f).lamp.houseLights = s.lamp.houseLights := rfl

end Read

end Sys2Proof.Machine.State
end

