-- ==== Sys2Proof/Safety.lean ====
section
/-! DEFINITION. What the statements speak of: the parts of the state an event's end or its tasks leave alone, what a command
answers, what the Request Unit's tasks do, the motion profile in numbers, and the laws of the spec that every step keeps. -/

namespace Sys2Proof.Machine

/-! ## Frames -/

/-- Everything but the two ports, the Port Arbiter, the Report Unit and the Fault Unit. -/
structure Interior where
  pending : List Instr
  showTime : Time
  resetLow : Bool
  lines : Lines
  disp : Disposition
  dir : DirectoryUnit
  cue : CueUnit
  zones : Vector Zone 8
  inputs : Vector VisitorInput 24
  req : RequestUnit
  slots : Vector Slot 8
  lamp : LampUnit
  voices : Vector Voice 8
  sampleCount : Nat
  axes : Vector Axis 12
  pins : Vector (Option Pin) 16
  ctl : ShowControl
  freeDraws : Nat
  deriving DecidableEq, Repr

def State.interior (s : State) : Interior :=
  { pending := s.pending, showTime := s.showTime, resetLow := s.resetLow, lines := s.lines, disp := s.disp, dir := s.dir,
    cue := s.cue, zones := s.zones, inputs := s.inputs, req := s.req, slots := s.slots, lamp := s.lamp,
    voices := s.voices, sampleCount := s.sampleCount, axes := s.axes, pins := s.pins, ctl := s.ctl,
    freeDraws := s.freeDraws }

/-- What the tasks of an event never change: the outside of the part and the counts the processor sees. -/
structure Outer where
  pending : List Instr
  showTime : Time
  resetLow : Bool
  lines : Lines
  up : Upstream
  disp : Disposition
  cue : CueUnit
  inputs : Vector VisitorInput 24
  sampleCount : Nat
  taken : Option Directory
  locked : Bool
  sequence : Word
  producer : Index
  consumer : Index
  writePending : Bool
  nextFrame : Option Time
  frames : Vector (List Byte) 4
  deriving DecidableEq, Repr

def State.outer (s : State) : Outer :=
  { pending := s.pending, showTime := s.showTime, resetLow := s.resetLow, lines := s.lines, up := s.up, disp := s.disp,
    cue := s.cue, inputs := s.inputs, sampleCount := s.sampleCount, taken := s.dir.taken, locked := s.dir.locked,
    sequence := s.dir.sequence, producer := s.report.producer, consumer := s.report.consumer,
    writePending := s.report.writePending, nextFrame := s.lamp.nextFrame, frames := s.lamp.frames }

/-- The Report Queue of `t` is that of `s` with records behind it, and the ring's counts are as they were. -/
def ReportsFollow (s t : State) : Prop :=
  s.report.queue <+: t.report.queue ∧ t.report.producer = s.report.producer ∧
    t.report.consumer = s.report.consumer ∧ t.report.writePending = s.report.writePending

/-- A record was handed to the Report Unit of `s` first of all that `t` has more: it stands behind what was queued, or the
queue was full and stays as it was (R50). -/
def ProducedFirst (s t : State) (r : Record) : Prop :=
  (s.report.queue.length < Config.reportQueueSize → s.report.queue ++ [⟨r, s.showTime⟩] <+: t.report.queue) ∧
    (Config.reportQueueSize ≤ s.report.queue.length → t.report.queue = s.report.queue)

/-- The attention output is asserted exactly while its condition holds (R55). -/
def AttentionLaw (s : State) : Prop := s.report.attention = s.wantsAttention

/-- `t` is `s` after the end of an event: the Arbiter has granted what was due and the attention output follows; all else is
as it was. A forwarded transaction that waited for a free port may have been refused at its grant, which logs LINK and
SHOW faults alone (R8, R13); otherwise the records, the banks and the response stand too. A busy port stays as it is. -/
def Closes (s t : State) : Prop :=
  t.interior = s.interior ∧ ReportsFollow s t ∧ AttentionLaw t ∧
    (∀ b : Bank, b ≠ .link → b ≠ .showBank → t.bank b = s.bank b) ∧
    (s.arb.forwarded = false ∨ s.port.isSome = true →
      t.up = s.up ∧ t.report.queue = s.report.queue ∧ t.report.lost = s.report.lost ∧ t.fault.banks = s.fault.banks) ∧
    (∀ f, s.port = some f → t.port = some f)

/-- The rest of an event of which some tasks are done: the tasks still asked for, then the event's end. -/
def follow (done : Nat) (e : Effect) : State := (runTasks (Config.agendaFuel - done) e.2 e.1).settle

/-! ## What a command answers -/

/-- The command answers a next state: what its effect `u` leaves, at the end of the event. -/
def Leaves (c : Instr) (s u : State) : Prop := ∃ t, exec c s = .next t ∧ Closes u t

/-- The command answers a next state: what its effect `u`, then the tasks it asks for, and the end of the event leave. -/
def Asks (c : Instr) (s u : State) (tasks : List Task) : Prop := exec c s = .next (follow 0 (u, tasks))

/-- The part with the line a command names at the level it names; a command that names no line leaves the part as it is. -/
def State.lineMoved (s : State) : Instr → State
  | .guardInputActive line => s.setGuardLine line .active
  | .guardInputInactive line => s.setGuardLine line .inactive
  | .visitorLineChange i level => s.setVisitorLine i level
  | .homeSwitchActive n => s.setHomeLine n .active
  | .homeSwitchInactive n => s.setHomeLine n .inactive
  | .stall n => s.setStallLine n .active
  | .stallInputInactive n => s.setStallLine n .inactive
  | .powerWarning => s.setPowerLine .active
  | .powerWarningInactive => s.setPowerLine .inactive
  | _ => s

/-- A cue of a kind stands at the head of the Cue Queue, with `rest` behind it, and the show takes cues (R44). -/
def State.headIs (s : State) (kind : CueKind) (c : TakenCue) (rest : List CueEntry) : Prop :=
  s.resetLow = false ∧ s.ctl.state ≠ .start ∧
    ∃ code, s.cue.queue = .cue c.index code c.tag c.params :: rest ∧ CueKind.ofByte code = some kind

/-- The part after the Cue Unit's own share of a take, with the answer given (R44, R46). -/
def State.answered (s : State) (c : TakenCue) (rest : List CueEntry) (result : CueResult) (value : Word := 0) : State :=
  (s.consumed rest).answer c result value

/-- The next step of a slot stands in its buffer and is due, with `rest` behind it, and is of a kind (R98). -/
def State.stepIs (s : State) (k : Fin 8) (kind : Option StepKind) (t : Step) (rest : List Step) : Prop :=
  s.resetLow = false ∧ (s.slot k).state = .running ∧ (s.slot k).wait = none ∧ (s.slot k).next < (s.slotScene k).steps ∧
    (s.slot k).buffer = t :: rest ∧ t.offset ≤ (s.slot k).clock ∧ t.kind = kind

/-- The part with that step taken out of the buffer (R98). -/
def State.pastStep (s : State) (k : Fin 8) (rest : List Step) : State :=
  s.setSlot k { s.slot k with buffer := rest, next := (s.slot k).next + 1 }

/-- The slot has a step left, and none that is due stands in its buffer. -/
def State.stepRests (u : State) (k : Fin 8) : Prop :=
  (u.slot k).next < (u.slotScene k).steps ∧ ∀ t rest, (u.slot k).buffer = t :: rest → (u.slot k).clock < t.offset

/-- The command answers a next state: what its step's effect `u` leaves, then the run of the steps now due; with none due,
what `u` leaves at the end of the event. -/
def Steps (c : Instr) (s u : State) (k : Fin 8) : Prop :=
  exec c s = .next (follow 1 (u, [.takeSteps k none])) ∧ (u.stepRests k → Leaves c s u)

/-- Is a number an enabled axis of a zone in the scene's zone set? -/
def State.axisServes (s : State) (scene : SceneRecord) (x : Nat) : Prop :=
  ∃ n : Fin 12, x = n.val ∧ (s.axisRecord n).isEnabled = true ∧ scene.hasZone (s.axisRecord n).zone = true

/-- The checks a step passes at its take (R99). -/
def State.stepPasses (s : State) (k : Fin 8) (t : Step) : Prop :=
  let scene := s.slotScene k
  t.offset ≤ 3600000 ∧
    match t.kind with
    | none => False
    | some .lamp =>
      1 ≤ t.channelCount ∧ t.channelCount ≤ 32 ∧ t.firstChannel + t.channelCount ≤ 128 ∧ t.level ≤ 1000 ∧
        t.fade ≤ 60000 ∧
        ∀ c : Fin 128, t.firstChannel ≤ c.val → c.val < t.firstChannel + t.channelCount →
          ∃ z, (s.channel c).zone = some z ∧ scene.hasZone z.val = true
    | some .narrate => scene.hasZone t.subject = true ∧ t.group < s.groupCount
    | some .move =>
      s.axisServes scene t.subject ∧
        ∀ n : Fin 12, t.subject = n.val → (s.axisRecord n).travelMin ≤ t.position ∧ t.position ≤ (s.axisRecord n).travelMax
    | some .wait =>
      t.conditionCode ≤ 2 ∧ (t.conditionCode = 0 → scene.hasZone t.subject = true) ∧
        (t.conditionCode = 1 → s.axisServes scene t.subject) ∧
        (t.conditionCode = 2 → t.levelCode ≤ 1 ∧ ∃ i : Fin 24, t.subject = i.val ∧ (s.inputRecord i).kind ≠ 0) ∧
        t.timeout ≤ 600000 ∧ t.onTimeout ≤ 1
    | some .loop => t.loopTarget < (s.slot k).next
    | some .mark | some .finish => True

/-! ## What the Request Unit's tasks do -/

/-- A scan and the ambient re-requests. A scan asked outside RUN makes no change, one asked during a scan is remembered, any
other takes the PREEMPTING requests and then the WAITING ones in queue order (R80); it ends with the single-chance removals
(R87), then the scan and the re-requests asked meanwhile, as the taking of all axes by one HOME AXIS cue does (log 14). A
re-request made in RUN or HOLD asks for each enabled auto-start scene with no slot and no queued request, in rising number
(R91). -/
def ScanIsMade (s : State) : Prop :=
  let ended := fun u : State => { u with req := { u.req with underWay := false, scanPending := false, owed := 0 } }
  let after : List Task := (if s.req.scanPending then [.askScan] else []) ++ List.replicate s.req.owed .reRequest
  (s.ctl.state ≠ .run → perform .askScan s = (s, [])) ∧
  (s.ctl.state = .run → s.req.underWay = true →
    perform .askScan s = ({ s with req := { s.req with scanPending := true } }, [])) ∧
  (s.ctl.state = .run → s.req.underWay = false →
    perform .askScan s = ({ s with req := { s.req with underWay := true } },
      ((s.req.queue.filter fun r => r.state == .preempting).map fun r => .judgePreempting r.scene) ++ [.waitingPhase])) ∧
  perform .waitingPhase s =
    (s, ((s.req.queue.filter fun r => r.state == .waiting).map fun r => .judgeWaiting r.scene) ++ [.endScan]) ∧
  perform .endScan s = (ended (s.dropWhere (fun r => r.single && r.state == .waiting) .expired), after) ∧
  perform .endHoming s = (ended s, after) ∧
  (s.req.underWay = true → perform .reRequest s = ({ s with req := { s.req with owed := s.req.owed + 1 } }, [])) ∧
  (s.req.underWay = false →
    perform .reRequest s = (s, if s.ctl.state = .run ∨ s.ctl.state = .hold then (fins 32).map .autoRequest else [])) ∧
  ∀ n,
    let called := (s.sceneRecord n).isEnabled = true ∧ (s.sceneRecord n).autoStart = true ∧
      (∀ k h, (s.slot k).state ≠ .free → (s.slot k).holding = some h → h.scene ≠ n) ∧ ∀ q ∈ s.req.queue, q.scene ≠ n
    (called → perform (.autoRequest n) s = s.request n .auto) ∧ (¬ called → perform (.autoRequest n) s = (s, []))

/-- Requests that leave the queue without starting: those of a condition, in queue order, each with its REQUEST DROPPED
record, the reservations held for their scenes cleared, and nothing else (R89, R90). -/
def RequestsAreRemoved (s : State) : Prop :=
  (s.req.queue.map Request.scene).Nodup → ∀ (p : Request → Bool) (reason : DropReason),
    let u := s.dropWhere p reason
    let gone := s.req.queue.filter p
    u.req = { s.req with queue := s.req.queue.filter fun r => !p r } ∧
    (∀ z, u.zone z =
      if ∃ r ∈ gone, (s.zone z).reservation = some r.scene then { s.zone z with reservation := none } else s.zone z) ∧
    u.report = gone.foldl (fun t r => t.joined ⟨.requestDropped r.scene r.origin reason, s.showTime⟩) s.report ∧
    { u with req := s.req, zones := s.zones, report := s.report } = s ∧
    perform (.dropAll reason) s = (s.dropWhere (fun _ => true) reason, [])

/-! ## The motion profile in numbers -/

/-- `x` is the fraction `q`. -/
def Exact.Is (x : Exact) (q : ℚ) : Prop := ∃ (a : Int) (b : Nat), x = .frac a b ∧ 0 < b ∧ q = a / b

/-- 1 toward higher positions, -1 toward lower. -/
def Direction.side : Direction → ℚ
  | .lower => -1
  | .higher => 1

/-- The speed and the place `t` ms into a part of the profile that began at speed `v` (steps/s) and place `p`, for an
acceleration `a` (steps/s²): the speed changes at exactly the acceleration, and the travel is its integral over time. A part
that slows is at rest from 1000 × v ÷ a ms on (R149). -/
def TravelIsTheIntegral (rec : AxisRecord) : Prop :=
  ∀ (r : Run) (dir : Direction) (dt : Exact) (v p t : ℚ), r.speed.Is v → r.place.Is p → dt.Is t →
    let a : ℚ := rec.acceleration
    let slows := r.kind = .slowing ∨ r.kind = .turning ∨ r.kind = .stopping
    (r.kind = .speedingUp → (r.speedAfter rec dt).Is (v + a * t / 1000) ∧
      (r.placeAfter rec dir dt).Is (p + dir.side * (v * t / 1000 + a * t ^ 2 / 2000000))) ∧
    (r.kind = .constant → (r.speedAfter rec dt).Is v ∧ (r.placeAfter rec dir dt).Is (p + dir.side * (v * t / 1000))) ∧
    (slows → a * t < 1000 * v → (r.speedAfter rec dt).Is (v - a * t / 1000) ∧
      (r.placeAfter rec dir dt).Is (p + dir.side * (v * t / 1000 - a * t ^ 2 / 2000000))) ∧
    (slows → 1000 * v ≤ a * t → (r.speedAfter rec dt).Is 0 ∧ r.placeAfter rec dir dt = r.rest) ∧
    (r.kind = .resting → (r.speedAfter rec dt).Is 0 ∧ r.placeAfter rec dir dt = r.place)

/-- When a part that began at speed `v`, place `p` and instant `w` (ms) ends, and what follows it. The ramp up ends at the
maximum speed `m`, or where the distance left to the target is v² ÷ (2 × a), whichever comes first; the part at maximum speed
ends where that distance is left; a part that slows ends 1000 × v ÷ a ms on (R149). -/
def PartsEnd (rec : AxisRecord) : Prop :=
  ∀ (r : Run) (dir : Direction) (target : Nat) (v p w : ℚ), r.speed.Is v → r.place.Is p → r.since.Is w →
    let a : ℚ := rec.acceleration
    let m : ℚ := rec.maxSpeed
    let left : ℚ := dir.side * (target - p)
    let next := r.following rec dir target
    (r.kind = .speedingUp → reachesMaximum rec r dir target = true →
      (r.ending rec dir target).Is (w + 1000 * (m - v) / a) ∧ next.2 = dir ∧ next.1.kind = .constant ∧ next.1.speed.Is m ∧
        next.1.place.Is (p + dir.side * ((m ^ 2 - v ^ 2) / (2 * a)))) ∧
    (r.kind = .speedingUp → reachesMaximum rec r dir target = false →
      next.2 = dir ∧ next.1.kind = .slowing ∧ next.1.rest = .whole target ∧
      (∃ x : Exact, x.Is (v ^ 2 / 2 + a * left) ∧ next.1.speed = x.squareRoot) ∧
      ∀ u : ℚ, next.1.speed.Is u → (r.ending rec dir target).Is (w + 1000 * (u - v) / a) ∧
        next.1.place.Is (p + dir.side * ((u ^ 2 - v ^ 2) / (2 * a)))) ∧
    (r.kind = .constant → v = m →
      (r.ending rec dir target).Is (w + 1000 * (left - v ^ 2 / (2 * a)) / m) ∧ next.2 = dir ∧ next.1.kind = .slowing ∧
        next.1.speed.Is v ∧ next.1.place.Is (target - dir.side * (v ^ 2 / (2 * a))) ∧ next.1.rest = .whole target) ∧
    (r.kind = .slowing ∨ r.kind = .turning ∨ r.kind = .stopping → (r.ending rec dir target).Is (w + 1000 * v / a)) ∧
    (r.kind = .turning → next.2 = dir.opposite ∧ next.1.kind = .speedingUp ∧ next.1.speed.Is 0 ∧ next.1.place = r.rest) ∧
    ∀ n k : Nat, v = n → p = k →
      (reachesMaximum rec r dir target = true ↔ m ^ 2 ≤ v ^ 2 / 2 + a * left)

/-- The way an axis takes from a place `p` and a speed `v` toward a target: from speed 0 in the target's direction; at a
speed, slowing to turn back where v² ÷ (2 × a) is more than the distance left, slowing to the target where it is that
distance, at the maximum speed where it has it, and speeding up otherwise (R149). A part that slows for another reason than the
target rests v² ÷ (2 × a) steps on. -/
def WayIsTaken (rec : AxisRecord) : Prop :=
  ∀ (target : Nat) (now place speed : Exact) (dir : Direction) (v p : ℚ), speed.Is v → place.Is p → 0 ≤ v →
    let a : ℚ := rec.acceleration
    let left : ℚ := dir.side * (target - p)
    let q := Run.toward rec target now place speed dir
    q.1.since = now ∧ q.1.place = place ∧ (q.1.speed.Is v ∨ rec.maxSpeed < v) ∧
    (v = 0 → p = target → q.1.kind = .slowing ∧ q.1.rest = .whole target) ∧
    (v = 0 → p < target → q.1.kind = .speedingUp ∧ q.2 = .higher) ∧
    (v = 0 → target < p → q.1.kind = .speedingUp ∧ q.2 = .lower) ∧
    (0 < v → q.2 = dir ∧
      (left < v ^ 2 / (2 * a) → q.1.kind = .turning ∧ q.1.rest.Is (p + dir.side * (v ^ 2 / (2 * a)))) ∧
      (left = v ^ 2 / (2 * a) → q.1.kind = .slowing ∧ q.1.rest = .whole target) ∧
      (v ^ 2 / (2 * a) < left → rec.maxSpeed ≤ v → q.1.kind = .constant ∧ q.1.speed.Is rec.maxSpeed) ∧
      (v ^ 2 / (2 * a) < left → v < rec.maxSpeed → q.1.kind = .speedingUp)) ∧
    ∀ kind, ∃ x : Exact, Run.slowFrom rec kind dir now place speed = ⟨kind, now, place, speed, x⟩ ∧
      x.Is (p + dir.side * (v ^ 2 / (2 * a)))

/-- The position of the step output: that of the start of the motion, moved by the whole steps travelled, any fraction
dropped (R149, log 10); in HOMING those of the homing speed, an eighth of the maximum rounded down and at least 1 step/s,
counted modulo 65,536 (R148). -/
def WholeStepsAreGiven (rec : AxisRecord) : Prop :=
  ∀ (x : Axis),
    (x.state = .homing →
      let speed := max 1 (rec.maxSpeed / 8)
      let steps := speed * x.elapsed / 1000
      x.speed rec = .whole speed ∧
      x.dueAt rec = match x.direction with
        | .higher => (x.origin + steps) % 65536
        | .lower => (((x.origin : Int) - steps) % 65536).toNat) ∧
    ∀ (r : Run) (q : ℚ), x.state ≠ .homing → x.run = some r → (x.place rec).Is q → ∀ k : Nat,
      (x.origin + k ≤ q → q < x.origin + k + 1 → x.dueAt rec = (x.origin + k) % 65536) ∧
      (q ≤ x.origin - k → (x.origin : ℚ) - k - 1 < q → x.dueAt rec = (((x.origin : Int) - k) % 65536).toNat)

/-- R149's ramp in numbers, for the accelerations and maximum speeds a directory may give (R30). -/
def RampNumbers (rec : AxisRecord) : Prop :=
  100 ≤ rec.acceleration → rec.acceleration ≤ 200000 → 1 ≤ rec.maxSpeed → rec.maxSpeed ≤ 20000 →
    TravelIsTheIntegral rec ∧ PartsEnd rec ∧ WayIsTaken rec ∧ WholeStepsAreGiven rec

/-! ## Laws -/

/-- The house-lights flag is set throughout SAFE (R126). -/
def HouseLightsLaw (s : State) : Prop := s.ctl.state = .safe → s.lamp.houseLights = true

/-- The Request Queue holds at most 16 requests, no two for the same scene, and none whose zone set contains a closed
zone (R74). -/
def RequestLaw (s : State) : Prop :=
  s.req.queue.length ≤ 16 ∧ (s.req.queue.map Request.scene).Nodup ∧
    ∀ r ∈ s.req.queue, ∀ z ∈ (s.sceneRecord r.scene).zones, (s.zone z).closed = false

/-- Only the MOTION bank holds a valid SEVERE record (R180). -/
def SevereLaw (s : State) : Prop := ∀ b : Bank, (s.bank b).isSevere = true → b = .motion

/-- Is the voice in a state that holds a pin: any but IDLE and LOOKUP (R165)? -/
def VoiceState.holdsPin : VoiceState → Bool
  | .idle | .lookup => false
  | .fetching | .playing | .starved | .paused | .draining | .stopping => true

/-- Exactly one pin for each slot not FREE and each voice not in IDLE or LOOKUP, and no other pins (R165). -/
def PinLaw (s : State) : Prop :=
  (∀ k : Fin 8, (s.pins.get (State.slotPlace k)).isSome = ((s.slot k).state != .free)) ∧
    ∀ v : Fin 8, (s.pins.get (State.voicePlace v)).isSome = (s.voice v).state.holdsPin

/-- The queues keep their sizes and the counts their ranges (R39, R49, R22). -/
def BoundsLaw (s : State) : Prop :=
  s.report.queue.length ≤ 16 ∧ s.report.lost ≤ 255 ∧ s.cue.queue.length ≤ 8 ∧ s.arb.forwardedWait ≤ 4

/-- Does a request wait at the Port Arbiter? -/
def State.requestWaits (s : State) : Prop :=
  s.arb.forwarded = true ∨ (∃ v, (s.arb.voice.get v).isSome = true) ∨ (∃ k, (s.arb.script.get k).isSome = true) ∨
    s.arb.lookups ≠ [] ∨ s.arb.writebacks ≠ []

/-- The Memory Port is busy whenever a request waits (R21). A FORWARDED request is that of a held transaction and leaves
the Arbiter when it is carried (R1, R20), and a WRITEBACK request waits only once a directory is taken (R39, R51, R183). -/
def PortLaw (s : State) : Prop :=
  (s.requestWaits → s.port.isSome = true) ∧ (s.arb.forwarded = true → s.up.held.isSome = true) ∧
    (s.carries Purpose.isForwarded = true → s.arb.forwarded = false ∧ s.up.held.isSome = true) ∧
    (s.arb.writebacks ≠ [] → s.dir.taken.isSome = true)

/-- The part never has more unconsumed records in the Report Ring than the ring has slots (R49); a record write that waits
or is in flight has its slot, and there is one of the two at most (R20, R51). -/
def RingLaw (s : State) : Prop :=
  s.arb.writebacks.Nodup ∧ ¬ (s.writeWaits .record = true ∧ s.carries Purpose.isRecord = true) ∧
    ∀ d, s.dir.taken = some d →
      (s.report.producer - s.report.consumer).toNat ≤ d.reportSlots ∧
        (s.writeWaits .record = true ∨ s.carriesLive Purpose.isRecord = true →
          (s.report.producer - s.report.consumer).toNat < d.reportSlots)

/-- Every owner slot of a zone is in a state other than FREE (R59). -/
def OwnerLaw (s : State) : Prop := ∀ z k : Fin 8, (s.zone z).owner = some k → (s.slot k).state ≠ .free

/-- A directory is that of a load image that passed every check, the header's, the geometry's and the records' (R27 to
R30). -/
def Directory.Passed (d : Directory) : Prop := ∃ image, firstFailure image = none ∧ d = directoryOf image

/-- The taken directory is one that passed every check (R31). -/
def DirectoryLaw (s : State) : Prop := ∀ d, s.dir.taken = some d → d.Passed

end Sys2Proof.Machine
end

