-- ==== Sys2Proof/Laws/Settle.lean ====
section
/-! SUPPORT. What the end of an event can do, said once: `closes_settle`. -/

namespace Sys2Proof.Machine

/-! ## Equal interiors, field by field -/

/-- The fields of `t` that the interior holds are those of `s`. -/
structure SameInterior (s t : State) : Prop where
  pending : t.pending = s.pending
  showTime : t.showTime = s.showTime
  resetLow : t.resetLow = s.resetLow
  lines : t.lines = s.lines
  disp : t.disp = s.disp
  dir : t.dir = s.dir
  cue : t.cue = s.cue
  zones : t.zones = s.zones
  inputs : t.inputs = s.inputs
  req : t.req = s.req
  slots : t.slots = s.slots
  lamp : t.lamp = s.lamp
  voices : t.voices = s.voices
  sampleCount : t.sampleCount = s.sampleCount
  axes : t.axes = s.axes
  pins : t.pins = s.pins
  ctl : t.ctl = s.ctl
  freeDraws : t.freeDraws = s.freeDraws

theorem sameInterior_of_eq {s t : State} (h : t.interior = s.interior) : SameInterior s t := by
  unfold State.interior at h
  rw [Interior.mk.injEq] at h
  obtain ⟨h1, h2, h3, h4, h5, h6, h7, h8, h9, h10, h11, h12, h13, h14, h15, h16, h17, h18⟩ := h
  exact ⟨h1, h2, h3, h4, h5, h6, h7, h8, h9, h10, h11, h12, h13, h14, h15, h16, h17, h18⟩

namespace State

/-- What raising requests changes: the waiting requests, and the start of a Fault Page pass. -/
def Raised (s t : State) : Prop :=
  ∃ (a : Arbiter) (dirty : Bool) (writer : Option Nat),
    t = { s with arb := a, fault := { s.fault with dirty := dirty, writer := writer } } ∧
      a.forwarded = s.arb.forwarded ∧ a.forwardedWait = s.arb.forwardedWait

theorem Raised.refl (s : State) : s.Raised s := ⟨_, _, _, rfl, rfl, rfl⟩

theorem Raised.trans {s t u : State} (h : s.Raised t) (k : t.Raised u) : s.Raised u := by
  obtain ⟨a, d, w, rfl, h1, h2⟩ := h
  obtain ⟨b, e, x, rfl, k1, k2⟩ := k
  exact ⟨b, e, x, rfl, k1.trans h1, k2.trans h2⟩

theorem raised_raiseLookup (s : State) (w : Looker) (o : Option Nat) : s.Raised (s.raiseLookup w o) := by
  cases o with
  | none => exact .refl s
  | some a => exact ⟨_, _, _, rfl, rfl, rfl⟩

theorem raised_raiseWrite (s : State) (w : Writer) (b : Bool) : s.Raised (s.raiseWrite w b) := by
  cases b with
  | false => exact .refl s
  | true => exact ⟨_, _, _, rfl, rfl, rfl⟩

theorem raised_beginPage (s : State) : s.Raised s.beginPage := by
  unfold beginPage; split
  · exact ⟨_, _, _, rfl, rfl, rfl⟩
  · exact .refl s

theorem raised_foldl {α : Type} (f : State → α → State) (h : ∀ t a, State.Raised t (f t a)) (l : List α) (s : State) :
    s.Raised (l.foldl f s) := by
  induction l generalizing s with
  | nil => exact .refl s
  | cons a l ih => exact (h s a).trans (ih _)

theorem raised_raiseAll (s : State) : s.Raised s.raiseAll := by
  have h1 : ∀ t : State, t.Raised t.raiseLookups := fun t =>
    ((((raised_raiseLookup t _ _).trans (raised_raiseLookup _ _ _)).trans
      (raised_foldl _ (fun _ _ => raised_raiseLookup _ _ _) _ _)).trans (raised_raiseLookup _ _ _))
  have h2 : ∀ t : State, t.Raised t.raiseReads := fun t => ⟨_, _, _, rfl, rfl, rfl⟩
  have h3 : ∀ t : State, t.Raised t.raiseWrites := fun t =>
    (((((raised_raiseWrite t _ _).trans (raised_raiseWrite _ _ _)).trans (raised_raiseWrite _ _ _)).trans
      (raised_beginPage _)).trans (raised_raiseWrite _ _ _)).trans (raised_raiseWrite _ _ _)
  exact ((h1 s).trans (h2 _)).trans (h3 _)

/-- What a grant of one of the part's own requests changes: the waiting requests and the Memory Port. -/
def Carried (s t : State) : Prop :=
  ∃ (a : Arbiter) (p : Option InFlight), t = { s with arb := a, port := p } ∧ a.forwarded = s.arb.forwarded

theorem carried_countWait (s t : State) (h : s.Carried t) : s.Carried t.countWait := by
  obtain ⟨a, p, rfl, h⟩ := h
  unfold countWait; split
  · exact ⟨_, _, rfl, h⟩
  · exact ⟨_, _, rfl, h⟩

theorem carried_grantVoice (s : State) (v r) : s.Carried (s.grantVoice v r) :=
  carried_countWait _ _ ⟨_, _, rfl, rfl⟩

theorem carried_grantClass (s : State) (c : RobinClass) (t : State) (h : s.grantClass c = some t) : s.Carried t := by
  cases c <;> simp only [grantClass] at h
  · obtain ⟨x, -, rfl⟩ := Option.map_eq_some_iff.1 h; exact carried_grantVoice ..
  · obtain ⟨x, -, rfl⟩ := Option.map_eq_some_iff.1 h; exact carried_countWait _ _ ⟨_, _, rfl, rfl⟩
  · split at h
    · cases h
    · cases h; exact carried_countWait _ _ ⟨_, _, rfl, rfl⟩
  · split at h
    · cases h
    · cases h; unfold grantWrite; split
      · exact ⟨_, _, rfl, rfl⟩
      · exact carried_countWait _ _ ⟨_, _, rfl, rfl⟩

theorem carried_grantRobin (s : State) : s.Carried s.grantRobin := by
  unfold grantRobin
  cases h : ((classesAfter s.arb.classPtr).findSome? fun c =>
    (s.grantClass c).map fun t => { t with arb := { t.arb with classPtr := c } }) with
  | none => exact ⟨_, _, rfl, rfl⟩
  | some t =>
    obtain ⟨c, -, hc⟩ := List.exists_of_findSome?_eq_some h
    obtain ⟨u, hu, rfl⟩ := Option.map_eq_some_iff.1 hc
    obtain ⟨a, p, rfl, hf⟩ := s.carried_grantClass c u hu
    exact ⟨_, _, rfl, hf⟩

/-- What the grant of the forwarded transaction changes. -/
def Disposed (s t : State) : Prop :=
  t.interior = s.interior ∧ ReportsFollow s t ∧ (∀ b : Bank, b ≠ .link → b ≠ .showBank → t.bank b = s.bank b) ∧
    t.arb.forwarded = false

/-- A record joining keeps what was queued at the front (R50). -/
theorem joined_prefix (r : ReportUnit) (x : QueuedRecord) : r.queue <+: (r.joined x).queue := by
  unfold ReportUnit.joined; split <;> simp

theorem joined_counts (r : ReportUnit) (x : QueuedRecord) :
    (r.joined x).producer = r.producer ∧ (r.joined x).consumer = r.consumer ∧ (r.joined x).writePending = r.writePending := by
  unfold ReportUnit.joined; split <;> simp

/-- Logging a fault adds at most its FAULT record behind the others (R180). -/
theorem follow_log (s : State) (m : Bool) (c d) : ReportsFollow s (s.logMarking m c d) := by
  unfold ReportsFollow logMarking reportFault
  dsimp only
  split
  · exact ⟨joined_prefix _ _, joined_counts _ _⟩
  · simp

theorem disposed_log (s t : State) (h : s.Disposed t) (c : FaultCode) (d) (hc : c.bank = .link ∨ c.bank = .showBank) :
    s.Disposed (t.log c d) := by
  obtain ⟨h1, ⟨a1, a2, a3, a4⟩, h3, h4⟩ := h
  obtain ⟨b1, b2, b3, b4⟩ := follow_log t true c d
  refine ⟨h1, ⟨a1.trans b1, b2.trans a2, b3.trans a3, b4.trans a4⟩, fun b hb hb' => ?_, h4⟩
  rw [← h3 b hb hb']
  unfold bank log logMarking
  apply put_get_other
  intro e
  have : c.bank = b := by revert e; cases c.bank <;> cases b <;> simp [Bank.place]
  rcases hc with hc | hc <;> simp_all

theorem disposed_grantForwarded (s : State) (t : Transaction) : s.Disposed (s.grantForwarded t) := by
  have base : ∀ r, s.Disposed (({ s with arb := { s.arb with forwarded := false, forwardedWait := 0 } } : State).respond r) :=
    fun r => ⟨rfl, ⟨List.prefix_refl _, rfl, rfl, rfl⟩, fun _ _ _ => rfl, rfl⟩
  unfold grantForwarded; dsimp only
  split
  · exact ⟨rfl, ⟨List.prefix_refl _, rfl, rfl, rfl⟩, fun _ _ _ => rfl, rfl⟩
  · exact base _
  · exact disposed_log _ _ (base _) _ _ (.inl rfl)
  · split
    · unfold lockedReload; split
      · exact disposed_log _ _ (disposed_log _ _ (base _) _ _ (.inl rfl)) _ _ (.inr rfl)
      · exact disposed_log _ _ (base _) _ _ (.inl rfl)
    · exact disposed_log _ _ (base _) _ _ (.inl rfl)

/-- A grant: none, of an own request, or of the forwarded transaction. -/
theorem grant_cases (s : State) :
    (s.port.isSome = true ∧ s.grant = s) ∨ (s.port = none ∧ (s.Carried s.grant ∨
      ∃ t, s.arb.forwarded = true ∧ s.up.held = some t ∧ s.grant = s.grantForwarded t)) := by
  have hfwd : ∀ u, s.forwardedGrant = some u →
      ∃ t, s.arb.forwarded = true ∧ s.up.held = some t ∧ u = s.grantForwarded t := by
    intro u h
    unfold forwardedGrant at h
    split at h
    · obtain ⟨t, h1, h2⟩ := Option.map_eq_some_iff.1 h
      exact ⟨t, ‹_›, h1, h2.symm⟩
    · cases h
  unfold grant
  by_cases hp : s.port.isSome = true
  · simp [hp]
  · right
    rw [if_neg hp]
    refine ⟨by simpa using hp, ?_⟩
    dsimp only
    split
    · rename_i u heq
      split at heq
      · exact .inr (hfwd _ heq)
      · cases heq
    · exact .inl (carried_grantVoice ..)
    · cases h : s.forwardedGrant with
      | none => exact .inl (by simpa using carried_grantRobin s)
      | some u => exact .inr (by simpa [h] using hfwd u h)

/-- The end of an event changes what `Closes` says and nothing else. -/
theorem closes_settle (s : State) : Closes s s.settle := by
  have round : ∀ s : State, 
      s.raiseAll.grant.interior = s.interior ∧ ReportsFollow s s.raiseAll.grant ∧
      (∀ b : Bank, b ≠ .link → b ≠ .showBank → s.raiseAll.grant.bank b = s.bank b) ∧
      (s.arb.forwarded = false ∨ s.port.isSome = true → s.raiseAll.grant.up = s.up ∧ s.raiseAll.grant.report = s.report ∧ s.raiseAll.grant.fault.banks = s.fault.banks) ∧
      (∀ f, s.port = some f → s.raiseAll.grant.port = some f) ∧ (s.arb.forwarded = false → s.raiseAll.grant.arb.forwarded = false) := by
    intro s
    obtain ⟨a, d, w, h, h1, h2⟩ := s.raised_raiseAll
    rcases s.raiseAll.grant_cases with ⟨hp, hg⟩ | ⟨hp, hg | ⟨t, hf, hu, hg⟩⟩
    · rw [hg, h]
      exact ⟨rfl, ⟨List.prefix_refl _, rfl, rfl, rfl⟩, fun _ _ _ => rfl, fun _ => ⟨rfl, rfl, rfl⟩, fun _ e => e, fun e => h1.trans e⟩
    · obtain ⟨b, p, hg, hb⟩ := hg
      rw [h] at hp hb
      rw [hg, h]
      exact ⟨rfl, ⟨List.prefix_refl _, rfl, rfl, rfl⟩, fun _ _ _ => rfl, fun _ => ⟨rfl, rfl, rfl⟩, fun f e => by simp_all, fun e => hb.trans (h1.trans e)⟩
    · obtain ⟨g1, g2, g3, g4⟩ := disposed_grantForwarded s.raiseAll t
      rw [← hg] at g1 g2 g3 g4
      have e1 : s.raiseAll.interior = s.interior := by rw [h]; rfl
      have e2 : s.raiseAll.report = s.report := by rw [h]
      have e3 : ∀ b, s.raiseAll.bank b = s.bank b := by intro b; rw [h]; rfl
      have e4 : s.raiseAll.port = s.port := by rw [h]
      have e5 : s.raiseAll.arb.forwarded = s.arb.forwarded := by rw [h]; exact h1
      refine ⟨g1.trans e1, ?_, fun b hb hb' => (g3 b hb hb').trans (e3 b), ?_, ?_, ?_⟩
      · unfold ReportsFollow at *; rw [e2] at g2; exact g2
      · rintro (h | h)
        · rw [e5] at hf; simp [h] at hf
        · rw [e4] at hp; simp [hp] at h
      · intro f hf'; rw [e4, hf'] at hp; cases hp
      · intro _; exact g4
  obtain ⟨a1, a2, a3, a4, a5, a6⟩ := round s
  obtain ⟨b1, b2, b3, b4, b5, b6⟩ := round s.raiseAll.grant
  have hs : s.settle = (s.raiseAll.grant.raiseAll.grant).attend := rfl
  rw [hs]
  generalize s.raiseAll.grant = t at *
  generalize t.raiseAll.grant = u at *
  have ha : ∀ x : State, x.attend = { x with report := { x.report with attention := x.wantsAttention } } := fun _ => rfl
  refine ⟨b1.trans a1, ?_, rfl, fun b hb hb' => (b3 b hb hb').trans (a3 b hb hb'), ?_, fun f hf => b5 f (a5 f hf)⟩
  · obtain ⟨p1, p2, p3, p4⟩ := a2
    obtain ⟨q1, q2, q3, q4⟩ := b2
    exact ⟨p1.trans q1, q2.trans p2, q3.trans p3, q4.trans p4⟩
  · intro h
    obtain ⟨x1, x2, x3⟩ := a4 h
    have : t.arb.forwarded = false ∨ t.port.isSome = true := by
      rcases h with h | h
      · exact .inl (a6 h)
      · right
        obtain ⟨f, hf⟩ := Option.isSome_iff_exists.1 h
        rw [a5 f hf]; rfl
    obtain ⟨y1, y2, y3⟩ := b4 this
    exact ⟨y1.trans x1, by rw [ha]; simp [y2, x2], by rw [ha]; simp [y2, x2], y3.trans x3⟩
end State

end Sys2Proof.Machine
end

