-- ==== Sys2Proof/Laws/Tasks.lean ====
section
/-! SUPPORT. What no task of an event changes (`outer_runTasks`), and what it does to the Report Queue
(`follows_runTasks`). -/

namespace Sys2Proof.Machine

namespace State

/-! ## The outside of the part stands -/

section Outer

variable (s : State)

@[simp] theorem outer_setSlot (k x) : (s.setSlot k x).outer = s.outer := rfl
@[simp] theorem outer_setZone (k x) : (s.setZone k x).outer = s.outer := rfl
@[simp] theorem outer_setVoice (k x) : (s.setVoice k x).outer = s.outer := rfl
@[simp] theorem outer_setAxis (k x) : (s.setAxis k x).outer = s.outer := rfl
@[simp] theorem outer_setChannel (k x) : (s.setChannel k x).outer = s.outer := rfl
@[simp] theorem outer_mapChannels (f) : (s.mapChannels f).outer = s.outer := by simp only [outer, mapChannels]
@[simp] theorem outer_mapZones (m f) : (s.mapZones m f).outer = s.outer := rfl
@[simp] theorem outer_setPin (k x) : (s.setPin k x).outer = s.outer := rfl
@[simp] theorem outer_setQueue (q) : (s.setQueue q).outer = s.outer := rfl
@[simp] theorem outer_discard (p) : (s.discard p).outer = s.outer := rfl
@[simp] theorem outer_withdrawLookup (w) : (s.withdrawLookup w).outer = s.outer := rfl
@[simp] theorem outer_withdrawWrite (w) : (s.withdrawWrite w).outer = s.outer := rfl
@[simp] theorem outer_dropFetch (k) : (s.dropFetch k).outer = s.outer := rfl
@[simp] theorem outer_dropVoiceRequest (k) : (s.dropVoiceRequest k).outer = s.outer := rfl
@[simp] theorem outer_produce (r) : (s.produce r).outer = s.outer := by
  simp [outer, joined_counts]
theorem reportFault_counts (c : FaultCode) (d : List Nat) :
    (s.reportFault c d).producer = s.report.producer ∧ (s.reportFault c d).consumer = s.report.consumer ∧
      (s.reportFault c d).writePending = s.report.writePending := by
  unfold reportFault; split <;> simp [joined_counts]
@[simp] theorem outer_logMarking (m c d) : (s.logMarking m c d).outer = s.outer := by
  have := s.reportFault_counts c d
  simp only [outer, logMarking, this]
@[simp] theorem outer_log (c d) : (s.log c d).outer = s.outer := outer_logMarking s _ c d

@[simp] theorem outer_changeShow' (n) : (s.changeShow n).outer = { s.outer with } := by
  unfold changeShow; simp [outer, joined_counts]
@[simp] theorem outer_dropRestore : s.dropRestore.outer = s.outer := rfl
@[simp] theorem outer_abandonRestore : s.abandonRestore.outer = s.outer := by
  unfold abandonRestore; split <;> simp
@[simp] theorem outer_beginLoad : s.beginLoad.outer = s.outer := rfl
@[simp] theorem outer_enterStart : s.enterStart.outer = s.outer := by simp [enterStart]
@[simp] theorem outer_drop (r x) : (s.drop r x).outer = s.outer := by simp [drop, unreserve]
@[simp] theorem outer_dropWhere (p x) : (s.dropWhere p x).outer = s.outer := by
  unfold dropWhere
  generalize s.req.queue.filter p = l
  induction l generalizing s with
  | nil => rfl
  | cons a l ih => simp [ih]
@[simp] theorem outer_startSnapshot (r) : (s.startSnapshot r).outer = s.outer := rfl
@[simp] theorem outer_mapHoming (n f) : (s.mapHoming n f).outer = s.outer := rfl
@[simp] theorem outer_modAxis (n f) : (s.modAxis n f).outer = s.outer := rfl
@[simp] theorem outer_setCooldown (n) : (s.setCooldown n).outer = s.outer := rfl
@[simp] theorem outer_lightChannels (k a b c d) : (s.lightChannels k a b c d).outer = s.outer := by
  simp only [outer, lightChannels]
@[simp] theorem outer_enterSafe : s.enterSafe.1.outer = s.outer := by
  have h : ∀ t : State, ({ t with lamp := { t.lamp with houseLights := true } } : State).outer = t.outer := fun _ => rfl
  simp [enterSafe, h]
@[simp] theorem outer_start (r k) : (s.start r k).outer = s.outer := by
  simp [start, claim]
@[simp] theorem outer_request (r k) : (s.request r k).1.outer = s.outer := by
  unfold request; split <;> simp [enqueue]
@[simp] theorem outer_startMove (k n p) : (s.startMove k n p).1.outer = s.outer := by
  unfold startMove; simp only []; (repeat' split) <;> simp
@[simp] theorem outer_startNarration (k n p) : (s.startNarration k n p).outer = s.outer := by
  unfold startNarration; simp only []; (repeat' split) <;> simp
@[simp] theorem outer_jump (k n) : (s.jump k n).outer = s.outer := by
  unfold jump; simp 
@[simp] theorem outer_act (k i t) : (s.act k i t).1.outer = s.outer := by
  unfold act takeLamp takeNarrate takeMove takeWait takeMark takeLoop; simp only []; (repeat' split) <;> simp
@[simp] theorem outer_takeStep (k i t b) : (s.takeStep k i t b).1.outer = s.outer := by
  unfold takeStep ; simp only []; (repeat' split) <;> simp
@[simp] theorem outer_freezeFades (k) : (s.freezeFades k).outer = s.outer := by
  unfold freezeFades ; simp
@[simp] theorem outer_thawFades (k) : (s.thawFades k).outer = s.outer := by
  unfold thawFades ; simp
@[simp] theorem outer_reportStarving (v) : (s.reportStarving v).outer = s.outer := by
  unfold reportStarving ; simp
@[simp] theorem outer_sampleVoice (v) : (s.sampleVoice v).1.outer = s.outer := by
  unfold sampleVoice ; dsimp only; split <;> simp
@[simp] theorem outer_stallAxis (k) : (s.stallAxis k).1.outer = s.outer := by
  unfold stallAxis ; simp
theorem outer_foldl {α : Type} (f : State → α → State) (h : ∀ t a, (f t a).outer = t.outer) (l : List α) :
    (l.foldl f s).outer = s.outer := by
  induction l generalizing s with
  | nil => rfl
  | cons a l ih => simp [ih, h]

theorem outer_withReq (r : RequestUnit) : ({ s with req := r } : State).outer = s.outer := rfl
theorem outer_withCtl (c : ShowControl) : ({ s with ctl := c } : State).outer = s.outer := rfl
@[simp] theorem outer_clearCooldowns : s.clearCooldowns.outer = s.outer := rfl

end Outer

theorem outer_perform (t : Task) (s : State) : (perform t s).1.outer = s.outer := by
  cases t <;> simp only [perform, State.stopSlot, State.testWound, State.takeSteps, State.wakeSlot, State.endLoad, State.restart, State.faultRestored, State.cutVoice, State.idleVoice, State.haltAxis, State.endHalt, State.giveUpAxis, State.arrive,
    State.findHome, addReason, removeReason, homeByCue, stallAtTake, stopStalled, safeAxis, giveUpChannel, safeChannel, askScan, judgePreempting, waitingPhase, judgeWaiting, endScan, reRequest, autoRequest, dropAll, testQuiet, takeTrigger, leaveStart,
    resumeScans, releaseChannels, releaseZones, holdChannels, removeHoming, addHoming, restartInto, preempt, reserve]
  case releaseSlots => 
    unfold releaseSlots
    apply outer_foldl; intro t a; split <;> simp
  case resumeVoices => rfl
  case clearHold => rfl
  case endScan => exact (outer_withReq _ _).trans (outer_dropWhere s _ _)
  case leaveStart =>
    (repeat' split) <;> simp [outer_withCtl]
  all_goals (repeat' split)
  all_goals try simp
  all_goals rfl
theorem outer_runTasks (n : Nat) (ts : List Task) (s : State) : (runTasks n ts s).outer = s.outer := by
  induction n generalizing ts s with
  | zero => rfl
  | succ n ih => cases ts with
    | nil => rfl
    | cons t ts => simp [runTasks, ih, outer_perform]

/-! ## The Report Queue grows -/

/-- The Report Queue of the one state begins with that of the other. -/
def Follows (s t : State) : Prop := s.report.queue <+: t.report.queue

@[refl] theorem Follows.refl (s : State) : s.Follows s := List.prefix_refl _
theorem Follows.trans {s t u : State} (h : s.Follows t) (k : t.Follows u) : s.Follows u := List.IsPrefix.trans h k
theorem follows_of_report {s t : State} (h : t.report = s.report) : s.Follows t := by unfold Follows; rw [h]
theorem Follows.produce {s t : State} (h : s.Follows t) (r) : s.Follows (t.produce r) := h.trans (joined_prefix _ _)
theorem Follows.log {s t : State} (h : s.Follows t) (c d) : s.Follows (t.log c d) := by
  refine h.trans ?_
  unfold Follows; rw [report_log]; unfold reportFault; split
  · exact joined_prefix _ _
  · exact List.prefix_refl _
theorem Follows.foldl {s t : State} {α : Type} (f : State → α → State) (h : ∀ t a, State.Follows t (f t a)) (l : List α) 
    (k : s.Follows t) : s.Follows (l.foldl f t) := by
  induction l generalizing t with
  | nil => exact k
  | cons a l ih => exact ih (k.trans (h t a))

theorem Follows.set {s t u : State} (h : s.Follows t) (k : u.report = t.report) : s.Follows u := h.trans (follows_of_report k)

theorem follows_changeShow (s : State) (n) : s.Follows (s.changeShow n) := (Follows.refl s).produce _
theorem follows_abandonRestore (s : State) : s.Follows s.abandonRestore := by
  unfold abandonRestore; split
  · exact .refl s
  · exact (follows_of_report rfl).produce _
theorem follows_enterStart (s : State) : s.Follows s.enterStart := follows_changeShow s _
theorem follows_drop (s : State) (r x) : s.Follows (s.drop r x) := (follows_of_report rfl).produce _
theorem follows_dropWhere (s : State) (p x) : s.Follows (s.dropWhere p x) :=
  (Follows.refl s).foldl _ (fun _ _ => follows_drop _ _ _) _
theorem follows_enterSafe (s : State) : s.Follows s.enterSafe.1 :=
  ((follows_changeShow s _).trans (follows_abandonRestore _)).set rfl
theorem follows_start (s : State) (r k) : s.Follows (s.start r k) := (follows_of_report rfl).produce _
theorem follows_restartInto (s : State) (r k) : s.Follows (s.restartInto r k).1 := (follows_of_report rfl).produce _
theorem follows_request (s : State) (r k) : s.Follows (s.request r k).1 := by
  unfold request; split
  · exact (Follows.refl s).produce _
  · exact .refl s
  · exact .refl s
  · exact follows_of_report rfl
theorem follows_jump (s : State) (k t) : s.Follows (s.jump k t) := follows_of_report rfl
theorem follows_startMove (s : State) (k n p) : s.Follows (s.startMove k n p).1 := by
  unfold startMove; dsimp only; (repeat' split) <;> exact follows_of_report (by simp)
theorem follows_startNarration (s : State) (k n p) : s.Follows (s.startNarration k n p) := by
  unfold startNarration; dsimp only; (repeat' split) <;> exact follows_of_report (by simp)
theorem follows_act (s : State) (k i t) : s.Follows (s.act k i t).1 := by
  unfold act; split
  · exact .refl s
  · exact follows_of_report rfl
  · unfold takeNarrate; split
    · exact .refl s
    · exact follows_startNarration ..
  · unfold takeMove; split
    · exact .refl s
    · exact follows_startMove ..
  · unfold takeWait; split
    · exact .refl s
    · split
      · exact .refl s
      · exact follows_of_report rfl
  · unfold takeMark; split
    · exact .refl s
    · exact (Follows.refl s).produce _
  · unfold takeLoop; dsimp only; (repeat' split) <;> exact follows_of_report rfl
  · exact .refl s
theorem follows_takeStep (s : State) (k i t b) : s.Follows (s.takeStep k i t b).1 := by
  have h : ∀ o : Option Nat, s.Follows (match o with
    | none => s.setSlot k { s.slot k with buffer := t, next := (s.slot k).next + 1 }
    | some l => (s.setSlot k { s.slot k with buffer := t, next := (s.slot k).next + 1 }).log .stepLate (s.slotDetail k ++ [(s.slot k).next, l])) := by
    intro o; split
    · exact follows_of_report rfl
    · exact (follows_of_report rfl).log _ _
  unfold takeStep; dsimp only; split
  · exact (h _).log _ _
  · exact (h _).trans (follows_act ..)
theorem follows_sampleVoice (s : State) (v) : s.Follows (s.sampleVoice v).1 := by
  unfold sampleVoice; dsimp only; refine Follows.set (t := if _ then _ else _) ?_ rfl; split
  · exact ((Follows.refl s).produce _).log _ _
  · exact .refl s
theorem follows_stallAxis (s : State) (n) : s.Follows (s.stallAxis n).1 := (follows_of_report rfl).log _ _

theorem follows_judgeWaiting (s : State) (r) : s.Follows (s.judgeWaiting r).1 := by
  unfold judgeWaiting; split
  · exact .refl s
  · split
    · exact .refl s
    · split
      · exact follows_restartInto ..
      · split
        · exact .refl s
        · split
          · exact follows_start ..
          · split
            · exact follows_of_report rfl
            · exact .refl s
theorem follows_leaveStart (s : State) (b) : s.Follows (s.leaveStart b).1 := by
  unfold leaveStart; split
  · exact .refl s
  · dsimp only; split
    · exact (Follows.refl s).produce _
    · have : ∀ e : Effect, s.Follows e.1 → s.Follows (if b then e.1.clearCooldowns else e.1) := by
        intro e h; split
        · exact h.set rfl
        · exact h
      apply this; split
      · exact Follows.trans (t := { s with ctl := { s.ctl with safePending := false } }) (follows_of_report rfl)
          (follows_enterSafe _)
      · exact Follows.trans (t := { s with ctl := { s.ctl with safePending := false } }) (follows_of_report rfl)
          (follows_changeShow _ _)
theorem follows_testWound (s : State) (k) : s.Follows (s.testWound k).1 := by
  unfold testWound; dsimp only; split
  · dsimp only; split
    · exact (follows_of_report rfl).produce _
    · exact follows_of_report rfl
  · exact .refl s

theorem follows_takeSteps (s : State) (k b) : s.Follows (s.takeSteps k b).1 := by
  unfold takeSteps; split
  · split
    · exact .refl s
    · split
      · exact .refl s
      · split
        · exact follows_takeStep ..
        · exact .refl s
  · exact .refl s

theorem follows_releaseSlots (s : State) : s.Follows s.releaseSlots.1 := by
  have h : s.releaseSlots.1 = (fins 8).foldl (fun t k =>
    if (t.slot k).state = .held then (t.setSlot k { t.slot k with state := .running }).thawFades k else t) s := by
    simp only [releaseSlots]
  rw [h]
  refine (Follows.refl s).foldl _ (fun t a => ?_) _
  split
  · exact follows_of_report (by simp [thawFades])
  · exact .refl t

theorem follows_perform (t : Task) (s : State) : s.Follows (perform t s).1 := by
  cases t <;> simp only [perform]
  case testWound => exact follows_testWound ..
  case takeSteps => exact follows_takeSteps ..
  case sampleVoice => exact follows_sampleVoice ..
  case faultRestored => exact (Follows.refl s).log _ _
  case releaseSlots => exact follows_releaseSlots s
  case findHome =>
    unfold findHome; dsimp only; split
    · split
      · exact ((Follows.refl s).produce _).set rfl
      · exact ((Follows.refl s).produce _).set rfl
    · exact .refl s
  case addReason n r =>
    unfold addReason; dsimp only
    refine Follows.set (t := if _ then _ else _) ?_ rfl
    split
    · exact (Follows.refl s).log _ _
    · exact .refl s
  case stallAtTake => unfold stallAtTake; split; exacts [follows_stallAxis .., .refl s]
  case judgePreempting =>
    unfold judgePreempting; split
    · split; exacts [follows_start .., .refl s]
    · exact .refl s
  case judgeWaiting => exact follows_judgeWaiting ..
  case endScan => exact (follows_dropWhere s _ _).set rfl
  case autoRequest => unfold autoRequest; dsimp only; split; exacts [follows_request .., .refl s]
  case dropAll => exact follows_dropWhere ..
  case quietTest => unfold testQuiet; split; exacts [follows_enterStart s, .refl s]
  case safeTrigger =>
    unfold takeTrigger; split
    · exact follows_of_report rfl
    all_goals first | exact follows_enterSafe s | exact .refl s
  case leaveStart => exact follows_leaveStart ..
  case stopSlot => unfold stopSlot releaseChannels; dsimp only; (repeat' split) <;> exact follows_of_report (by simp)
  case restart => unfold restart holdChannels; dsimp only; (repeat' split) <;> exact follows_of_report (by simp)
  case endLoad => unfold endLoad freezeFades; dsimp only; (repeat' split) <;> exact follows_of_report (by simp)
  case wakeSlot => unfold wakeSlot; (repeat' split) <;> exact follows_of_report (by simp)
  case cutVoice => unfold cutVoice; dsimp only; (repeat' split) <;> exact follows_of_report (by simp)
  case idleVoice => unfold idleVoice; dsimp only; (repeat' split) <;> exact follows_of_report (by simp)
  case resumeVoices => exact follows_of_report rfl
  case haltAxis => unfold haltAxis; dsimp only; (repeat' split) <;> exact follows_of_report (by simp)
  case endHalt => unfold endHalt; dsimp only; (repeat' split) <;> exact follows_of_report (by simp)
  case giveUpAxis => unfold giveUpAxis removeHoming mapHoming; dsimp only; (repeat' split) <;> exact follows_of_report (by simp)
  case arrive => unfold arrive; dsimp only; (repeat' split) <;> exact follows_of_report (by simp)
  case removeReason => exact follows_of_report rfl
  case homeByCue => exact follows_of_report rfl
  case endHoming => exact follows_of_report rfl
  case stopStalled => exact .refl s
  case safeAxis => exact follows_of_report rfl
  case clearHold => exact follows_of_report rfl
  case giveUpChannel => unfold giveUpChannel; dsimp only; (repeat' split) <;> exact follows_of_report (by simp)
  case safeChannel => exact follows_of_report (by simp [safeChannel])
  case askScan => unfold askScan; (repeat' split) <;> exact follows_of_report (by simp)
  case waitingPhase => exact .refl s
  case reRequest => unfold reRequest; (repeat' split) <;> exact follows_of_report (by simp)
  case startSnapshot => exact follows_of_report rfl

theorem follows_runTasks (n : Nat) (ts : List Task) (s : State) : s.Follows (runTasks n ts s) := by
  induction n generalizing ts s with
  | zero => exact .refl s
  | succ n ih => cases ts with
    | nil => exact .refl s
    | cons t ts => exact (follows_perform t s).trans (ih _ _)
end State

end Sys2Proof.Machine
end

