-- ==== Sys2Proof/Laws/Changes.lean ====
section
/-! SUPPORT. What a command or a task can do to the state, said once: a chain of small changes, each with what the laws of
Safety.lean ask of it. -/

namespace Sys2Proof.Machine

/-- Requests may leave the Arbiter, and the transaction in flight may be discarded; nothing else there changes. -/
structure Withdraws (s t : State) : Prop where
  forwarded : t.arb.forwarded = s.arb.forwarded
  wait : t.arb.forwardedWait = s.arb.forwardedWait
  voice : ∀ v, t.arb.voice.get v = none ∨ t.arb.voice.get v = s.arb.voice.get v
  script : ∀ k, t.arb.script.get k = none ∨ t.arb.script.get k = s.arb.script.get k
  lookups : t.arb.lookups.Sublist s.arb.lookups
  writebacks : t.arb.writebacks.Sublist s.arb.writebacks
  port : t.port = s.port ∨ ∃ f, s.port = some f ∧ t.port = some { f with live := false }

/-- One small change. -/
inductive Change (s : State) : State → Prop
  | slot (k : Fin 8) (x : Slot) (h : x.state = .free ↔ (s.slot k).state = .free) : Change s (s.setSlot k x)
  | freed (k : Fin 8) (x : Slot) (h : x.state = .free) :
      Change s (((s.releaseZones k).setPin (State.slotPlace k) none).setSlot k x)
  | occupied (k : Fin 8) (scene : Fin 32) (x : Slot) (p : Pin) (h : x.state ≠ .free) :
      Change s (((s.claim k scene).setSlot k x).setPin (State.slotPlace k) (some p))
  | voices (vs : Vector Voice 8) (h : ∀ v, (vs.get v).state.holdsPin = (s.voice v).state.holdsPin) :
      Change s { s with voices := vs }
  | pinnedVoice (v : Fin 8) (x : Voice) (p : Option Pin) (h : p.isSome = x.state.holdsPin) :
      Change s ((s.setPin (State.voicePlace v) p).setVoice v x)
  | axes (a : Vector Axis 12) : Change s { s with axes := a }
  | lamp (l : LampUnit) (h : s.ctl.state = .safe → s.lamp.houseLights = true → l.houseLights = true) :
      Change s { s with lamp := l }
  | zones (zs : Vector Zone 8) (hc : ∀ z, (zs.get z).closed = true → (s.zone z).closed = true)
      (ho : ∀ z, (zs.get z).owner = none ∨ (zs.get z).owner = (s.zone z).owner) : Change s { s with zones := zs }
  | closed (z : Fin 8) :
      Change s ((s.setZone z { s.zone z with closed := true }).dropWhere
        (fun r => (s.sceneRecord r.scene).hasZone z.val) .zoneClosed)
  | requests (r : RequestUnit) (h : (r.queue.map Request.scene).Sublist (s.req.queue.map Request.scene)) :
      Change s { s with req := r }
  | queued (scene : Fin 32) (origin : Origin) (restart : Bool) (h : s.req.queue.length < 16)
      (hn : s.queuedRequest scene = none) (hz : ∀ z ∈ (s.sceneRecord scene).zones, (s.zone z).closed = false) :
      Change s (s.enqueue scene origin restart)
  | produced (r : Record) : Change s (s.produce r)
  | logged (marks : Bool) (code : FaultCode) (detail : List Nat) : Change s (s.logMarking marks code detail)
  | lost (n : Nat) : Change s (s.lose n)
  | withdrawn (a : Arbiter) (p : Option InFlight) (h : Withdraws s { s with arb := a, port := p }) :
      Change s { s with arb := a, port := p }
  | control (c : ShowControl) (h : c.state = .safe → s.ctl.state = .safe ∨ s.lamp.houseLights = true) :
      Change s { s with ctl := c }
  | directory (d : DirectoryUnit) (h : d.taken = s.dir.taken) : Change s { s with dir := d }
  | page (f : FaultUnit) (h : f.banks = s.fault.banks) : Change s { s with fault := f }
  | cleared (b : Bank) : Change s (s.setBank b .invalid)
  | draws (n : Nat) : Change s { s with freeDraws := n }
  | lines (l : Lines) : Change s { s with lines := l }
  | watched (d : Disposition) (i : Vector VisitorInput 24) (n : Nat) :
      Change s { s with disp := d, inputs := i, sampleCount := n }
  | cues (c : CueUnit) (h : s.cue.queue.length ≤ 8 → c.queue.length ≤ 8) : Change s { s with cue := c }
  | consumerRead (i : Index)
      (h : (s.report.producer - i).toNat ≤ (s.report.producer - s.report.consumer).toNat) :
      Change s { s with report := { s.report with consumer := i } }
  | producerDone : Change s { s with report := { s.report with writePending := false } }
  | answered (h : ¬ s.carries Purpose.isForwarded = true) : Change s s.freePort
  | responded (r : Response) (h : s.carries Purpose.isForwarded = true) : Change s (s.freePort.respond r)
  | presented (t : Transaction) (h : s.up.held = none) : Change s (s.forward t)
  | written (n : Nat) (h : s.carriesLive Purpose.isRecord = true) : Change s (s.freePort.recordWritten n)
  | recordLost : Change s s.recordLost
  | reset : Change s { s with resetLow := false }
  | taken (d : Directory) (h : d.Passed) : Change s (s.takeBlocks d)

/-- A chain of changes. -/
abbrev Changes : State → State → Prop := Relation.ReflTransGen fun s t => Change s t

theorem Change.one {s t : State} (h : Change s t) : Changes s t := Relation.ReflTransGen.single h

theorem Changes.then {s t u : State} (h : Changes s t) (k : Change t u) : Changes s u := Relation.ReflTransGen.tail h k

theorem Changes.trans {s t u : State} (h : Changes s t) (k : Changes t u) : Changes s u := Relation.ReflTransGen.trans h k

theorem Change.voice {s : State} (v : Fin 8) (x : Voice) (h : x.state.holdsPin = (s.voice v).state.holdsPin) :
    Change s (s.setVoice v x) :=
  .voices _ fun w => by
    rw [put_get]; split
    · next e => subst e; exact h
    · rfl

theorem Changes.foldl {s t : State} {α : Type} (f : State → α → State) (h : ∀ t a, Changes t (f t a)) (l : List α)
    (k : Changes s t) : Changes s (l.foldl f t) := by
  induction l generalizing t with
  | nil => exact k
  | cons a l ih => exact ih (k.trans (h t a))

/-- A directory that passed every check passed those of its geometry and its records. -/
theorem Directory.Passed.holds {d : Directory} (p : d.Passed) :
    ∀ c ∈ geometryChecks d ++ recordChecks d, c.holds = true := by
  obtain ⟨image, h, rfl⟩ := p
  intro c hc
  have := List.find?_eq_none.1 h c (by
    simp only [List.mem_append] at hc ⊢
    rcases hc with hc | hc
    · exact .inl (.inr hc)
    · exact .inr hc)
  simpa using this

namespace State

theorem changes_refl (s : State) : Changes s s := Relation.ReflTransGen.refl

theorem withdraws_dropFetch (s : State) (k : Fin 8) : Withdraws s (s.dropFetch k) where
  forwarded := rfl
  wait := rfl
  voice _ := .inr rfl
  script j := by
    show (put s.arb.script k none).get j = none ∨ (put s.arb.script k none).get j = s.arb.script.get j
    rw [put_get]; split <;> simp
  lookups := List.Sublist.refl _
  writebacks := List.Sublist.refl _
  port := by
    show Option.map _ s.port = s.port ∨ _
    cases h : s.port with
    | none => exact .inl rfl
    | some f =>
      by_cases hf : Purpose.isScript k f.purpose
      · right; exact ⟨f, rfl, by show Option.map _ s.port = _; simp [h, hf]⟩
      · left; simp [hf]

theorem withdraws_discard (s : State) (p : Purpose → Bool) : Withdraws s (s.discard p) where
  forwarded := rfl
  wait := rfl
  voice _ := .inr rfl
  script _ := .inr rfl
  lookups := List.Sublist.refl _
  writebacks := List.Sublist.refl _
  port := by
    show Option.map _ s.port = s.port ∨ _
    cases h : s.port with
    | none => exact .inl rfl
    | some f =>
      by_cases hf : p f.purpose
      · right; exact ⟨f, rfl, by show Option.map _ s.port = _; simp [h, hf]⟩
      · left; simp [hf]

theorem changes_discard (s : State) (p) : Changes s (s.discard p) :=
  (Change.withdrawn s.arb _ (withdraws_discard s p)).one

theorem changes_withdrawLookup (s : State) (w) : Changes s (s.withdrawLookup w) :=
  (Change.withdrawn { s.arb with lookups := s.arb.lookups.filter fun l => l.who != w } s.port
    { forwarded := rfl, wait := rfl, voice := fun _ => .inr rfl, script := fun _ => .inr rfl,
      lookups := List.filter_sublist, writebacks := List.Sublist.refl _, port := .inl rfl }).one

theorem changes_withdrawWrite (s : State) (w) : Changes s (s.withdrawWrite w) :=
  (Change.withdrawn { s.arb with writebacks := s.arb.writebacks.filter fun x => x != w } s.port
    { forwarded := rfl, wait := rfl, voice := fun _ => .inr rfl, script := fun _ => .inr rfl,
      lookups := List.Sublist.refl _, writebacks := List.filter_sublist, port := .inl rfl }).one

theorem changes_dropFetch (s : State) (k) : Changes s (s.dropFetch k) :=
  (Change.withdrawn _ _ (withdraws_dropFetch s k)).one

theorem changes_dropVoiceRequest (s : State) (v) : Changes s (s.dropVoiceRequest v) := by
  have h : Changes s { s with arb := { s.arb with voice := put s.arb.voice v none } } :=
    (Change.withdrawn { s.arb with voice := put s.arb.voice v none } s.port
      { forwarded := rfl, wait := rfl
        voice := fun w => by
          show (put s.arb.voice v none).get w = none ∨ (put s.arb.voice v none).get w = s.arb.voice.get w
          rw [put_get]; split <;> simp
        script := fun _ => .inr rfl
        lookups := List.Sublist.refl _, writebacks := List.Sublist.refl _, port := .inl rfl }).one
  exact (h.trans (changes_withdrawLookup _ _)).trans (changes_discard _ _)

theorem changes_lampKept (s : State) (l : LampUnit) (h : l.houseLights = s.lamp.houseLights) :
    Changes s { s with lamp := l } := (Change.lamp l fun _ e => h.trans e).one

theorem changes_setAxis (s : State) (n a) : Changes s (s.setAxis n a) := (Change.axes _).one

theorem changes_setZoneKept (s : State) (z : Fin 8) (x : Zone) (hc : x.closed = (s.zone z).closed)
    (ho : x.owner = (s.zone z).owner) : Changes s (s.setZone z x) :=
  (Change.zones _
    (fun y h => by
      rw [put_get] at h; split at h
      · next e => subst e; exact hc ▸ h
      · exact h)
    (fun y => by
      rw [put_get]; split
      · next e => subst e; exact .inr ho
      · exact .inr rfl)).one

theorem changes_mapZonesKept (s : State) (m : Nat) (f : Zone → Zone) (hc : ∀ x, (f x).closed = x.closed)
    (ho : ∀ x, (f x).owner = x.owner) : Changes s (s.mapZones m f) :=
  (Change.zones _
    (fun y h => by
      rw [tabulate_get] at h; split at h
      · rw [hc] at h; exact h
      · exact h)
    (fun y => by
      rw [tabulate_get]; split
      · exact .inr (ho _)
      · exact .inr rfl)).one

theorem changes_mapHoming (s : State) (n f) : Changes s (s.mapHoming n f) :=
  (Change.zones _
    (fun y h => by
      rw [tabulate_get] at h; split at h
      · exact h
      · exact h)
    (fun y => by
      rw [tabulate_get]; split
      · exact .inr rfl
      · exact .inr rfl)).one

theorem changes_unreserve (s : State) (n) : Changes s (s.unreserve n) :=
  changes_mapZonesKept _ _ _ (fun x => by split <;> rfl) (fun x => by split <;> rfl)

theorem changes_reserve (s : State) (n) : Changes s (s.reserve n) :=
  changes_mapZonesKept _ _ _ (fun _ => rfl) (fun _ => rfl)

theorem changes_setQueue (s : State) (q : List Request)
    (h : (q.map Request.scene).Sublist (s.req.queue.map Request.scene)) : Changes s (s.setQueue q) :=
  (Change.requests _ h).one

theorem changes_setQueueFilter (s : State) (p : Request → Bool) : Changes s (s.setQueue (s.req.queue.filter p)) :=
  changes_setQueue s _ (List.filter_sublist.map _)

theorem changes_reqKept (s : State) (r : RequestUnit) (h : r.queue = s.req.queue) : Changes s { s with req := r } :=
  (Change.requests r (by rw [h])).one

theorem changes_setCooldown (s : State) (n) : Changes s (s.setCooldown n) := changes_reqKept _ _ rfl

theorem changes_clearCooldowns (s : State) : Changes s s.clearCooldowns := changes_reqKept _ _ rfl

theorem changes_drop (s : State) (r x) : Changes s (s.drop r x) :=
  ((changes_setQueueFilter s _).trans (changes_unreserve _ _)).then (.produced _)

theorem changes_dropWhere (s : State) (p x) : Changes s (s.dropWhere p x) :=
  Changes.foldl _ (fun _ _ => changes_drop _ _ _) _ (changes_refl s)

theorem changes_log (s : State) (c d) : Changes s (s.log c d) := (Change.logged true c d).one

theorem changes_ctlKept (s : State) (c : ShowControl) (h : c.state = s.ctl.state) : Changes s { s with ctl := c } :=
  (Change.control c fun e => .inl (h ▸ e)).one

theorem changes_dropRestore (s : State) : Changes s s.dropRestore :=
  ((changes_withdrawLookup s _).trans (changes_discard _ _)).trans (changes_ctlKept _ _ rfl)

theorem changes_abandonRestore (s : State) : Changes s s.abandonRestore := by
  unfold abandonRestore; split
  · exact changes_refl s
  · exact (changes_dropRestore s).then (.produced _)

theorem changes_changeShow (s : State) (n : ShowState) (h : n ≠ .safe) : Changes s (s.changeShow n) :=
  ((Change.produced _).one).then (.control _ fun e => absurd e h)

theorem changes_enterStart (s : State) : Changes s s.enterStart :=
  (changes_changeShow s _ (by simp)).then (.directory _ rfl)

theorem changes_enterSafe (s : State) : Changes s s.enterSafe.1 := by
  have h : s.enterSafe.1 = (State.changeShow { s with lamp := { s.lamp with houseLights := true } } .safe).abandonRestore := by
    unfold enterSafe abandonRestore
    have : (s.changeShow .safe).ctl.restore =
      (State.changeShow { s with lamp := { s.lamp with houseLights := true } } .safe).ctl.restore := rfl
    dsimp only
    rw [this]
    cases (State.changeShow { s with lamp := { s.lamp with houseLights := true } } .safe).ctl.restore <;> rfl
  rw [h]
  have h1 : Changes s { s with lamp := { s.lamp with houseLights := true } } := (Change.lamp _ fun _ _ => rfl).one
  have h2 := h1.then (.produced (.showState s.ctl.state .safe))
  have h3 := h2.then (.control { s.ctl with state := .safe } fun _ => .inr rfl)
  exact h3.trans (changes_abandonRestore _)

theorem changes_slot (s : State) (k : Fin 8) (x : Slot) (h : x.state = .free ↔ (s.slot k).state = .free) :
    Changes s (s.setSlot k x) := (Change.slot k x h).one

theorem changes_slotKept (s : State) (k : Fin 8) (x : Slot) (h : x.state = (s.slot k).state) :
    Changes s (s.setSlot k x) := (Change.slot k x (by rw [h])).one

theorem changes_start (s : State) (r : Request) (k) : Changes s (s.start r k) := by
  have h1 := (Change.occupied (s := s) k r.scene (s.occupied r.scene) (s.scriptPin r.scene) (by simp [State.occupied])).one
  exact (((h1.trans (changes_setCooldown _ r.scene)).trans (changes_setQueueFilter _ _))).then (.produced _)

theorem changes_jump (s : State) (k t) : Changes s (s.jump k t) :=
  (changes_dropFetch s k).trans (changes_slotKept _ _ _ rfl)

theorem changes_startMove (s : State) (k n p) : Changes s (s.startMove k n p).1 := by
  unfold startMove; dsimp only
  (repeat' split) <;> first | exact changes_setAxis .. | exact changes_refl s

theorem changes_startNarration (s : State) (k v g) : Changes s (s.startNarration k v g) := by
  unfold startNarration; dsimp only
  split <;> rename_i h
  · exact (Change.voice _ _ (by simp [h, VoiceState.holdsPin])).one
  · exact (changes_dropVoiceRequest s v).then (.voice _ _ (by
      show VoiceState.holdsPin _ = (s.voice v).state.holdsPin
      simp [h]))
  all_goals try
    exact (changes_dropVoiceRequest s v).then (.voice _ _ (by
      show VoiceState.holdsPin .stopping = (s.voice v).state.holdsPin
      simp [h, VoiceState.holdsPin]))
  · exact (Change.voice _ _ (by simp)).one

theorem changes_setClear (s : State) (k : Fin 8) (f : Slot → Slot) (h : ∀ x, (f x).state = x.state) :
    Changes s (s.setSlot k (f (s.slot k))) := changes_slotKept s k _ (h _)

theorem changes_takeLoop (s : State) (k i t) : Changes s (s.takeLoop k i t).1 := by
  unfold takeLoop
  by_cases h : t.loopCount = 0
  · rw [if_pos h]; exact changes_jump s k t
  · rw [if_neg h]
    dsimp only
    generalize loopAfter (s.slot k) i t = l
    by_cases hl : 0 < l.remaining
    · rw [if_pos hl]
      exact (changes_setClear s k (fun x => { x with loop := some l }) fun _ => rfl).trans (changes_jump _ k t)
    · rw [if_neg hl]
      exact changes_setClear s k (fun x => { x with loop := none }) fun _ => rfl

theorem changes_takeWait (s : State) (k t) : Changes s (s.takeWait k t).1 := by
  unfold takeWait; split
  · exact changes_refl s
  · split
    · exact changes_refl s
    · dsimp only
      generalize (some _ : Option Wait) = w
      exact changes_setClear s k (fun x => { x with wait := w }) fun _ => rfl

theorem changes_takeMark (s : State) (k i t) : Changes s (s.takeMark k i t).1 := by
  unfold takeMark; split
  · exact changes_refl s
  · exact (Change.produced _).one

theorem changes_takeMove (s : State) (k t) : Changes s (s.takeMove k t).1 := by
  unfold takeMove; split
  · exact changes_refl s
  · exact changes_startMove ..

theorem changes_takeNarrate (s : State) (k t) : Changes s (s.takeNarrate k t).1 := by
  unfold takeNarrate; split
  · exact changes_refl s
  · exact changes_startNarration ..

theorem changes_act (s : State) (k i t) : Changes s (s.act k i t).1 := by
  unfold act; split
  · exact changes_refl s
  · exact changes_lampKept _ _ rfl
  · exact changes_takeNarrate ..
  · exact changes_takeMove ..
  · exact changes_takeWait ..
  · exact changes_takeMark ..
  · exact changes_takeLoop ..
  · exact changes_refl s

theorem changes_takeStep (s : State) (k t b a) : Changes s (s.takeStep k t b a).1 := by
  have h0 : Changes s (s.setSlot k { s.slot k with buffer := b, next := (s.slot k).next + 1 }) :=
    changes_setClear s k (fun x => { x with buffer := b, next := x.next + 1 }) fun _ => rfl
  have h : ∀ o : Option Nat, Changes s (match o with
    | none => s.setSlot k { s.slot k with buffer := b, next := (s.slot k).next + 1 }
    | some l => (s.setSlot k { s.slot k with buffer := b, next := (s.slot k).next + 1 }).log .stepLate
        (s.slotDetail k ++ [(s.slot k).next, l])) := by
    intro o; split
    · exact h0
    · exact h0.trans (changes_log ..)
  unfold takeStep; dsimp only; split
  · exact (h _).trans (changes_log ..)
  · exact (h _).trans (changes_act ..)

theorem changes_takeSteps (s : State) (k a) : Changes s (s.takeSteps k a).1 := by
  unfold takeSteps; split
  · split
    · exact changes_refl s
    · split
      · exact changes_refl s
      · split
        · exact changes_takeStep ..
        · exact changes_refl s
  · exact changes_refl s

theorem changes_releaseSlots (s : State) : Changes s s.releaseSlots.1 := by
  have h : s.releaseSlots.1 = (fins 8).foldl (fun t k =>
    if (t.slot k).state = .held then (t.setSlot k { t.slot k with state := .running }).thawFades k else t) s := by
    simp only [releaseSlots]
  rw [h]
  refine Changes.foldl _ (fun t a => ?_) _ (changes_refl s)
  split
  · next hs => exact (changes_slot _ _ _ (by simp [hs])).trans (changes_lampKept _ _ rfl)
  · exact changes_refl t

theorem changes_holdSlots (s : State) : Changes s s.holdSlots := by
  refine Changes.foldl _ (fun t a => ?_) _ (changes_refl s)
  split
  · next hs => exact (changes_slot _ _ _ (by simp [hs])).trans (changes_lampKept _ _ rfl)
  · exact changes_refl t

/-- What admission asks of a request it queues (R76 to R78). -/
theorem admitted (s : State) {n : Fin 32} {o : Origin} {b : Bool} (h : s.admission n o = .queued b) :
    s.req.queue.length < 16 ∧ s.queuedRequest n = none ∧ ∀ z ∈ (s.sceneRecord n).zones, (s.zone z).closed = false := by
  unfold admission at h
  dsimp only at h
  split at h
  · cases h
  · split at h
    · cases h
    · rename_i hz
      have hz' : ∀ z ∈ (s.sceneRecord n).zones, (s.zone z).closed = false := by simpa using hz
      split at h <;> try cases h
      all_goals
        unfold admitToQueue at h
        dsimp only at h
        split at h
        · cases h
        · split at h
          · cases h
          · rename_i hn
            split at h
            · cases h
            · split at h
              · cases h
              · rename_i hl
                refine ⟨by simpa [Config.requestQueueSize] using hl, ?_, hz'⟩
                simpa using hn

theorem changes_request (s : State) (n : Fin 32) (o : Origin) : Changes s (s.request n o).1 := by
  unfold request; split
  · exact (Change.produced _).one
  · exact changes_refl s
  · exact changes_refl s
  · next b h =>
    obtain ⟨h1, h2, h3⟩ := s.admitted h
    exact (Change.queued n o b h1 h2 h3).one

theorem changes_preempt (s : State) (r : Request) : Changes s (s.preempt r).1 := by
  refine (changes_setQueue s _ ?_).trans (changes_reserve _ _)
  rw [List.map_map]
  have h : (Request.scene ∘ fun q : Request => if q.scene = r.scene then { q with state := .preempting } else q) =
      Request.scene := by
    funext q
    simp only [Function.comp]
    split <;> rfl
  rw [h]

theorem changes_judgeWaiting (s : State) (n) : Changes s (s.judgeWaiting n).1 := by
  unfold judgeWaiting; split
  · exact changes_refl s
  · split
    · exact changes_refl s
    · split
      · exact ((changes_setQueueFilter s _).trans (changes_setCooldown _ _)).then (.produced _)
      · split
        · exact changes_refl s
        · split
          · exact changes_start ..
          · split
            · exact changes_preempt ..
            · exact changes_refl s

theorem changes_stallAxis (s : State) (n) : Changes s (s.stallAxis n).1 :=
  (changes_setAxis s _ _).trans (changes_log ..)

theorem changes_startSnapshot (s : State) (r) : Changes s (s.startSnapshot r) := by
  have h := (changes_withdrawWrite s .snapshot).trans (changes_discard _ Purpose.isSnapshot)
  exact (h.trans (changes_ctlKept _
    { s.ctl with snapshot := some ⟨s.snapshotImage r s.sceneByte, r, s.dir.sequence, 0⟩ } rfl)).then
      (.draws (s.freeDraws + 8))

theorem changes_leaveStart (s : State) (b) : Changes s (s.leaveStart b).1 := by
  unfold leaveStart; split
  · exact changes_refl s
  · have h0 : Changes s { s with ctl := { s.ctl with safePending := false } } := changes_ctlKept _ _ rfl
    dsimp only; split
    · exact h0.trans (changes_changeShow _ _ (by simp))
    · have : ∀ e : Effect, Changes s e.1 → Changes s (if b then e.1.clearCooldowns else e.1) := by
        intro e h; split
        · exact h.trans (changes_clearCooldowns _)
        · exact h
      apply this; split
      · exact h0.trans (changes_enterSafe _)
      · exact h0.trans (changes_changeShow _ _ (by simp))

theorem changes_testWound (s : State) (k) : Changes s (s.testWound k).1 := by
  unfold testWound; dsimp only; split
  · have h := (Change.freed (s := s) k { s.slot k with state := .free, holding := none, endReason := none } rfl).one
    dsimp only; split
    · exact h.then (.produced _)
    · exact h
  · exact changes_refl s

theorem holdsPin_sampled (v : Voice) (now : Time) : (v.sampled now).state.holdsPin = v.state.holdsPin := by
  unfold Voice.sampled Voice.advanced Voice.silent; dsimp only
  (repeat' split) <;> simp_all [VoiceState.holdsPin]

theorem changes_sampleVoice (s : State) (v) : Changes s (s.sampleVoice v).1 := by
  unfold sampleVoice; dsimp only; split
  · unfold reportStarving
    have h1 : Changes s (s.produce (.voiceStarved v (s.voice v).owner (match (s.voice v).clip with
      | none => 0
      | some c => c.address))) := (Change.produced _).one
    refine (h1.trans (changes_log _ .starved _)).then (.voice v _ ?_)
    exact holdsPin_sampled _ _
  · exact (Change.voice _ _ (holdsPin_sampled _ _)).one

theorem changes_perform (t : Task) (s : State) : Changes s (perform t s).1 := by
  cases t <;> simp only [perform]
  case stopSlot k r =>
    unfold stopSlot; dsimp only; split
    · exact changes_refl s
    all_goals try
      rename_i h
      exact ((changes_dropFetch s k).trans (changes_slot _ _ _ (by
        show SlotState.stopping = .free ↔ (s.slot k).state = .free
        simp [h]))).trans (changes_lampKept _ _ rfl)
    · split
      · exact changes_refl s
      · exact changes_refl s
  case testWound => exact changes_testWound ..
  case takeSteps => exact changes_takeSteps ..
  case wakeSlot k =>
    unfold wakeSlot; split
    · exact changes_refl s
    · split
      · exact changes_slotKept _ _ _ rfl
      · exact changes_refl s
  case endLoad k a =>
    unfold endLoad; dsimp only; split
    · next h =>
      have h' : (s.slot k).state = .loading := by simp at h; exact h.1
      split
      · exact (changes_slot _ _ _ (by simp [h'])).trans (changes_lampKept _ _ rfl)
      · exact changes_slot _ _ _ (by simp [h'])
    · exact changes_refl s
  case restart k =>
    unfold restart; dsimp only; split
    · next h =>
      exact ((changes_dropFetch s k).trans (changes_slot _ _ _ (by
        show SlotState.loading = .free ↔ (s.slot k).state = .free
        cases hs : (s.slot k).state <;> simp_all [SlotState.mayRestart]))).trans (changes_lampKept _ _ rfl)
    · exact changes_refl s
  case faultRestored => exact changes_log ..
  case releaseSlots => exact changes_releaseSlots s
  case sampleVoice => exact changes_sampleVoice s _
  case cutVoice v =>
    unfold cutVoice; dsimp only; split <;> rename_i h
    · exact changes_refl s
    · exact changes_refl s
    all_goals try
      exact (changes_dropVoiceRequest s v).then (.voice _ _ (by
        show VoiceState.holdsPin .stopping = (s.voice v).state.holdsPin
        simp [h, VoiceState.holdsPin]))
    · exact (Change.voice _ _ (by simp)).one
  case idleVoice v =>
    unfold idleVoice; dsimp only; split
    · exact changes_refl s
    · exact (changes_dropVoiceRequest s v).then (.pinnedVoice v _ none rfl)
  case resumeVoices => exact (Change.voices _ fun v => by
      rw [tabulate_get]; unfold Voice.resumed State.voice
      split
      · next h => rw [h]; split <;> first | rfl | (rw [h])
      · rfl).one
  case haltAxis =>
    unfold haltAxis; dsimp only; split <;> first | exact changes_setAxis .. | exact changes_refl s
  case endHalt =>
    unfold endHalt; dsimp only; split
    · split <;> exact changes_setAxis ..
    · exact changes_refl s
  case giveUpAxis n =>
    unfold giveUpAxis; dsimp only; split
    · exact changes_setAxis ..
    · exact (changes_setAxis s n _).trans (changes_mapHoming _ _ _)
    · exact changes_setAxis ..
  case arrive =>
    unfold arrive; dsimp only; split
    · exact changes_setAxis ..
    · exact changes_refl s
  case findHome n =>
    unfold findHome; dsimp only; split
    · split
      · exact ((Change.produced _).one).trans (changes_setAxis _ _ _)
      · exact ((Change.produced _).one).trans (changes_setAxis _ _ _)
    · exact changes_refl s
  case addReason n r =>
    unfold addReason; dsimp only
    refine Relation.ReflTransGen.trans ?_ (changes_setAxis _ _ _)
    split
    · exact changes_log ..
    · exact changes_refl s
  case removeReason => exact changes_setAxis ..
  case homeByCue n =>
    unfold homeByCue addHoming
    dsimp only
    exact (changes_setAxis s n _).trans (changes_mapHoming _ _ _)
  case endHoming => exact changes_reqKept _ _ rfl
  case stallAtTake => unfold stallAtTake; split; exacts [changes_stallAxis .., changes_refl s]
  case stopStalled => exact changes_refl s
  case safeAxis => exact changes_setAxis ..
  case clearHold => exact (Change.axes _).one
  case giveUpChannel =>
    unfold giveUpChannel; dsimp only; split
    · exact changes_lampKept _ _ rfl
    · exact changes_refl s
  case safeChannel => exact changes_lampKept _ _ rfl
  case askScan =>
    unfold askScan; split
    · exact changes_refl s
    · split <;> exact changes_reqKept _ _ rfl
  case judgePreempting =>
    unfold judgePreempting; split
    · split; exacts [changes_start .., changes_refl s]
    · exact changes_refl s
  case waitingPhase => exact changes_refl s
  case judgeWaiting => exact changes_judgeWaiting ..
  case endScan => exact (changes_dropWhere s _ _).trans (changes_reqKept _ _ rfl)
  case reRequest =>
    unfold reRequest; split
    · exact changes_reqKept _ _ rfl
    · split <;> exact changes_refl s
  case autoRequest => unfold autoRequest; dsimp only; split; exacts [changes_request .., changes_refl s]
  case dropAll => exact changes_dropWhere ..
  case quietTest => unfold testQuiet; split; exacts [changes_enterStart s, changes_refl s]
  case safeTrigger =>
    unfold takeTrigger; split
    · exact changes_ctlKept _ _ rfl
    all_goals first | exact changes_enterSafe s | exact changes_refl s
  case leaveStart => exact changes_leaveStart ..
  case startSnapshot => exact changes_startSnapshot ..

theorem changes_runTasks (n : Nat) (ts : List Task) (s : State) : Changes s (runTasks n ts s) := by
  induction n generalizing ts s with
  | zero => exact changes_refl s
  | succ n ih => cases ts with
    | nil => exact changes_refl s
    | cons t ts => exact (changes_perform t s).trans (ih _ _)

/-! ### Takes of a directory, restores and the other beginnings of events -/

theorem changes_mapVoicesPaused (s : State) : Changes s s.pauseVoices :=
  (Change.voices _ fun v => by
    rw [tabulate_get]; unfold Voice.paused State.voice
    split <;> rename_i h <;> first | rfl | (rw [h]; rfl)).one

theorem changes_enterHold (s : State) (r) : Changes s (s.enterHold r).1 :=
  ((changes_changeShow s .hold (by simp)).trans (changes_holdSlots _)).trans (changes_mapVoicesPaused _)

theorem changes_restoreOne (lines : List Byte) (s : State) (r : Restored) (k) (h : Changes s r.state) :
    Changes s (restoreOne lines r k).state := by
  unfold restoreOne; dsimp only; split
  · exact h
  · split
    · exact h.then (.occupied _ _ _ _ (by simp [State.occupied]))
    · exact h

theorem changes_restoreLanguages (s : State) (lines) : Changes s (s.restoreLanguages lines) :=
  (Change.zones _
    (fun y h => by
      rw [tabulate_get] at h; dsimp only at h; split at h <;> exact h)
    (fun y => by
      rw [tabulate_get]; dsimp only; split <;> exact .inr rfl)).one

theorem changes_restoreLevels (s : State) (lines r) : Changes s (s.restoreLevels lines r) := changes_lampKept _ _ rfl

theorem changes_endRestore (s : State) (lines) : Changes s (s.endRestore lines).1 := by
  have h0 : Changes s { s with ctl := { s.ctl with restore := none } } := changes_ctlKept _ _ rfl
  unfold endRestore; dsimp only; split
  · have h1 : ∀ (l : List (Fin 8)) (r : Restored), Changes s r.state →
        Changes s (l.foldl (restoreOne lines) r).state := by
      intro l
      induction l with
      | nil => exact fun _ h => h
      | cons a l ih => exact fun r h => ih _ (changes_restoreOne lines s r a h)
    have h2 := h1 (fins 8) ⟨{ s with ctl := { s.ctl with restore := none } }, []⟩ h0
    generalize (fins 8).foldl (restoreOne lines) _ = r at h2
    exact ((h2.trans (changes_restoreLevels _ lines r.slots)).trans (changes_restoreLanguages _ lines)).then (.produced _)
  · exact h0.then (.produced _)

theorem changes_takeRestoreLine (s : State) (r line) : Changes s (s.takeRestoreLine r line).1 := by
  unfold takeRestoreLine; split
  · split
    · exact changes_ctlKept _ _ rfl
    · exact (changes_ctlKept s { s.ctl with restore := none } rfl).then (.produced _)
  · split
    · exact changes_ctlKept _ _ rfl
    · exact changes_endRestore ..

theorem changes_judgeImage (s : State) (image) : Changes s (s.judgeImage image).1 := by
  unfold judgeImage; split
  · next h => exact (Change.taken _ ⟨image, h, rfl⟩).one.then (.produced _)
  · exact (Change.directory { s.dir with image := [], load := .idle } rfl).one.trans (changes_log _ _ _)

theorem changes_beginLoad (s : State) : Changes s s.beginLoad :=
  (Change.directory { s.dir with image := [], load := .loading 0 } rfl).one

theorem changes_requestReload (s : State) : Changes s s.requestReload.1 := by
  have hs : Changes s s.enterStart := changes_enterStart s
  have hi : Changes s s.ignoreReload := changes_log ..
  unfold requestReload; (repeat' split) <;>
    first | exact hs | exact hi | exact (changes_changeShow s _ (by simp)).trans (changes_abandonRestore _)

theorem changes_takeProducer (s : State) (n) : Changes s (s.takeProducer n) := by
  unfold takeProducer; dsimp only; split
  · exact changes_log ..
  · exact (Change.cues { s.cue with accepted := s.disp.cueProducer.setWidth 16 } id).one

/-- A valid consumer value leaves no more records unconsumed than before (R53). -/
theorem consumer_range {p c v : Index} (h : (v - c).toNat ≤ (p - c).toNat) : (p - v).toNat ≤ (p - c).toNat := by
  have e : p - v = (p - c) - (v - c) := by simp
  have le : v - c ≤ p - c := h
  rw [e, BitVec.toNat_sub_of_le le]
  omega

theorem changes_takeConsumer (s : State) : Changes s s.takeConsumer := by
  unfold takeConsumer; dsimp only; split
  · next h => exact (Change.consumerRead _ (consumer_range h)).one
  · exact changes_log ..

theorem changes_observe (s : State) (a d) : Changes s (s.observe a d).1 := by
  have h1 : ∀ (t : State) (x : Disposition), Changes t { t with disp := x } := fun t x =>
    (Change.watched x t.inputs t.sampleCount).one
  have h2 : Changes s (s.observeRings a d) := by
    unfold observeRings; split
    · exact changes_refl s
    · next dir _ =>
      have h3 : Changes s (if covers a d.length dir.cueBase then
          State.takeProducer { s with disp := { s.disp with cueProducer := observed s.disp.cueProducer dir.cueBase a d } }
            dir.cueSlots
          else s) := by
        split
        · exact (h1 s _).trans (changes_takeProducer _ _)
        · exact changes_refl s
      dsimp only; split
      · exact (h3.trans (h1 _ _)).trans (changes_takeConsumer _)
      · exact h3
  unfold observe; dsimp only; split
  · exact (h2.trans (h1 _ _)).trans (changes_requestReload _)
  · exact h2

theorem changes_dropPort (s : State) (f : InFlight) (h : s.port = some f) (hp : f.purpose.isForwarded = false) :
    Changes s s.freePort := (Change.answered (by simp [carries, h, hp])).one

theorem changes_enterLine (s : State) (k line) : Changes s (s.enterLine k line).1 := changes_slotKept _ _ _ rfl

theorem changes_failFetch (s : State) (k b a) : Changes s (s.failFetch k b a).1 := by
  unfold failFetch; split <;> exact changes_log ..

theorem changes_timeOutWait (s : State) (k w) : Changes s (s.timeOutWait k w).1 := by
  have h := changes_setClear s k (fun x => { x with wait := none }) fun _ => rfl
  unfold timeOutWait; dsimp only; split
  · exact h
  · exact h.trans (changes_log ..)

theorem changes_chooseClip (s : State) (v c) : Changes s (s.chooseClip v c) := by
  unfold chooseClip; dsimp only
  have h1 : Changes s (s.setVoice v
      { s.voice v with clip := some c, fetchPos := 0, playPos := 0, buffer := [], starvedReported := false }) := by
    refine (Change.voice v _ ?_).one
    rfl
  split
  · exact (h1.trans (changes_log _ _ _)).then (.pinnedVoice v _ _ rfl)
  · exact h1.then (.pinnedVoice v _ _ rfl)

theorem changes_takeClipGroup (s : State) (v line) : Changes s (s.takeClipGroup v line).1 := by
  unfold takeClipGroup; dsimp only; split
  · exact changes_log ..
  · exact changes_chooseClip ..

theorem holdsPin_afterLine (v : Voice) (b : Bool) : (v.afterLine b).state.holdsPin = v.state.holdsPin := by
  unfold Voice.afterLine; dsimp only
  (repeat' split) <;> simp_all [VoiceState.holdsPin]

theorem changes_takeClipLine (s : State) (v line) : Changes s (s.takeClipLine v line) := by
  unfold takeClipLine; dsimp only
  refine (Change.voice v _ ?_).one
  exact holdsPin_afterLine _ _

theorem changes_failVoiceRead (s : State) (v b a) : Changes s (s.failVoiceRead v b a).1 := by
  unfold failVoiceRead; split <;> exact changes_log ..

theorem changes_sampleAll (s : State) : Changes s s.sampleAll.1 :=
  (Change.watched s.disp s.inputs (s.sampleCount + 1)).one

theorem changes_endCut (s : State) (v) : Changes s (s.endCut v).1 := by
  unfold endCut; dsimp only; split
  · exact changes_refl s
  · exact (Change.pinnedVoice v _ none rfl).one

theorem changes_tripGuard (s : State) (z) : Changes s (s.tripGuard z).1 := by
  unfold tripGuard; dsimp only; split <;> first | exact changes_refl s | exact changes_setZoneKept _ _ _ rfl rfl

theorem changes_settleGuard (s : State) (z) : Changes s (s.settleGuard z) := by
  unfold settleGuard; dsimp only; split <;> first | exact changes_refl s | exact changes_setZoneKept _ _ _ rfl rfl

theorem changes_stepLanguage (s : State) (i) : Changes s (s.stepLanguage i) := by
  unfold stepLanguage; split
  · exact changes_refl s
  · exact changes_setZoneKept _ _ _ rfl rfl

theorem changes_press (s : State) (i) : Changes s (s.press i).1 := by
  unfold press pressScene; split
  · split
    · exact changes_refl s
    · exact changes_request ..
  · split
    · exact changes_stepLanguage ..
    · exact changes_refl s

theorem changes_setInput (s : State) (i x) : Changes s (s.setInput i x) := (Change.watched s.disp _ s.sampleCount).one

theorem changes_edge (s : State) (i) : Changes s (s.edge i).1 := by
  have h : Changes s (s.takeLevel i) := changes_setInput ..
  unfold edge; dsimp only; split
  · exact h.trans (changes_press _ _)
  · exact h

theorem changes_nextPart (s : State) (n) : Changes s (s.nextPart n) := by
  unfold nextPart; dsimp only; split
  · exact changes_refl s
  · exact changes_setAxis ..

theorem changes_stallRises (s : State) (n) : Changes s (s.stallRises n).1 := by
  unfold stallRises; split
  · exact changes_stallAxis ..
  · exact changes_refl s

theorem changes_warnPower (s : State) : Changes s s.warnPower.1 := by
  have h : Changes s (s.log .powerWarning []) := changes_log ..
  unfold warnPower; dsimp only; split
  · exact h.trans (changes_enterHold _ .powerWarning)
  all_goals exact h

theorem changes_pageLineWritten (s : State) : Changes s s.pageLineWritten := by
  unfold pageLineWritten
  refine (Change.page _ ?_).one
  rfl

theorem changes_snapshotLineWritten (s : State) : Changes s s.snapshotLineWritten := by
  unfold snapshotLineWritten; split
  · exact changes_refl s
  · split
    · exact changes_ctlKept _ _ rfl
    · next w _ _ => exact (changes_ctlKept s { s.ctl with snapshot := none } rfl).then (.produced _)

theorem changes_enterCues (s : State) (l : List CueEntry)
    (h : s.cue.queue.length ≤ 8 → s.cue.queue.length + l.length ≤ 8) : Changes s (s.enterCues l) :=
  (Change.cues _ (by simpa using h)).one

/-- Nothing is ahead of F where C has passed P (R40, log 43). -/
theorem producedAhead_of_passed (s : State) {n : Nat} (h : n < (s.cue.accepted - s.cue.consumer).toNat) :
    s.producedAhead n = 0 := if_neg (by omega)

theorem entriesDue_le (s : State) (n) : s.cue.queue.length ≤ 8 → s.cue.queue.length + s.entriesDue n ≤ 8 := by
  unfold entriesDue Config.cueQueueSize; omega

/-! ### Cues -/

theorem changes_consumed (s : State) (e : CueEntry) (rest) (h : s.cue.queue = e :: rest) : Changes s (s.consumed rest) :=
  (Change.cues _ (by rw [h]; simp; omega)).one

theorem changes_answer (s : State) (c r w) : Changes s (s.answer c r w) := (Change.produced _).one

theorem changes_refuse (s : State) (c r) : Changes s (s.refuse c r).1 := changes_answer ..

theorem changes_cueRequestScene (s : State) (c) : Changes s (s.cueRequestScene c).1 := by
  unfold cueRequestScene; split
  · exact changes_refuse ..
  · split
    · exact changes_refuse ..
    · exact changes_answer ..
    · next n b h =>
      obtain ⟨h1, h2, h3⟩ := s.admitted h
      exact (changes_answer s c .queued 0).then (.queued _ _ _ h1 h2 h3)

theorem changes_cueStopScene (s : State) (c) : Changes s (s.cueStopScene c).1 := by
  unfold cueStopScene; split
  · exact changes_refuse ..
  · split
    · exact (changes_answer s c .accepted 0).trans (changes_dropWhere _ _ _)
    · exact changes_refuse ..

theorem changes_cueCloseZone (s : State) (c) : Changes s (s.cueCloseZone c).1 := by
  unfold cueCloseZone; split
  · exact changes_refuse ..
  · next z _ =>
    split
    · exact (changes_answer s c .accepted 0).then (.closed z)
    · exact changes_refuse ..

theorem changes_cueOpenZone (s : State) (c) : Changes s (s.cueOpenZone c).1 := by
  unfold cueOpenZone; split
  · exact changes_refuse ..
  · next z _ =>
    split
    · refine (changes_answer s c .accepted 0).then (.zones _ (fun y h => ?_) fun y => ?_)
      · rw [put_get] at h; split at h
        · cases h
        · exact h
      · rw [put_get]; split
        · next e => subst e; exact .inr rfl
        · exact .inr rfl
    · exact changes_refuse ..

theorem changes_cueSetLanguage (s : State) (c) : Changes s (s.cueSetLanguage c).1 := by
  unfold cueSetLanguage; split
  · split
    · exact (changes_answer s c .accepted 0).trans (changes_setZoneKept _ _ _ rfl rfl)
    · exact changes_refuse ..
  · exact changes_refuse ..

theorem changes_cueSetBaseLevel (s : State) (c) : Changes s (s.cueSetBaseLevel c).1 := by
  unfold cueSetBaseLevel; split
  · exact changes_refuse ..
  · exact (changes_answer s c .accepted 0).trans (changes_lampKept _ _ rfl)

theorem changes_cueHouseLights (s : State) (c) : Changes s (s.cueHouseLights c).1 := by
  unfold cueHouseLights; split
  · exact changes_refuse ..
  · next on _ =>
    split
    · exact changes_refuse ..
    · next h =>
      refine (changes_answer s c .accepted 0).then (.lamp _ fun e _ => ?_)
      have e' : s.ctl.state = .safe := e
      simpa [e'] using h

theorem changes_cueHomeAxis (s : State) (c) : Changes s (s.cueHomeAxis c).1 := by
  unfold cueHomeAxis; split
  · exact changes_refuse ..
  · unfold cueHomeOne; (repeat' split) <;> exact changes_answer ..
  · unfold cueHomeAll; split
    · exact changes_refuse ..
    · exact (changes_answer s c .accepted _).trans (changes_reqKept _ _ rfl)

theorem changes_cueHoldShow (s : State) (c) : Changes s (s.cueHoldShow c).1 := by
  unfold cueHoldShow; split
  · exact (changes_answer s c .accepted 0).trans (changes_enterHold _ .hold)
  · exact changes_refuse ..

theorem changes_cueReleaseShow (s : State) (c) : Changes s (s.cueReleaseShow c).1 := by
  unfold cueReleaseShow; split
  · exact (changes_answer s c .accepted 0).trans (changes_changeShow _ _ (by simp))
  · exact changes_refuse ..

theorem changes_cueClearFault (s : State) (c) : Changes s (s.cueClearFault c).1 := by
  unfold cueClearFault; split
  · exact changes_refuse ..
  · next b _ =>
    exact ((changes_answer s c .accepted 0).then (.cleared b)).then (.page { (s.fault) with banks := _, dirty := true } rfl)

theorem changes_cueEnterSafe (s : State) (c) : Changes s (s.cueEnterSafe c).1 := by
  unfold cueEnterSafe; split <;>
    first | exact changes_answer .. | exact (changes_answer s c .accepted 0).trans (changes_enterSafe _)

theorem changes_cueLeaveSafe (s : State) (c) : Changes s (s.cueLeaveSafe c).1 := by
  unfold cueLeaveSafe; split
  · exact changes_refuse ..
  · split
    · exact changes_refuse ..
    · exact (changes_answer s c .accepted 0).trans (changes_changeShow _ _ (by simp))

theorem changes_cueRestoreShow (s : State) (c) : Changes s (s.cueRestoreShow c).1 := by
  unfold cueRestoreShow; split
  · exact changes_refuse ..
  · split
    · exact (changes_answer s c .accepted 0).trans (changes_ctlKept _ _ rfl)
    · exact changes_refuse ..

end State

/-! ## Commands -/

/-- What a command other than HARDWARE RESET answers: nothing changes, an input line alone changes while RESET is low, or
a chain of changes is followed by the event's end. -/
inductive Reaches (s : State) : Answer → Prop
  | nothing : Reaches s (.next s)
  | line (l : Lines) (h : s.resetLow = true) : Reaches s (.next { s with lines := l })
  | event (u : State) (h : Changes s u) : Reaches s (.next u.settle)

open State

theorem reaches_conclude (s : State) (e : Effect) (h : Changes s e.1) : Reaches s (.next (conclude e)) :=
  .event _ (h.trans (changes_runTasks _ _ _))

theorem reaches_react (s : State) (b : Bool) (e : Effect) (h : b = true → Changes s e.1) : Reaches s (react s b e) := by
  unfold react; split
  · next hb => exact reaches_conclude s e (h (by simp at hb; exact hb.2))
  · exact .nothing

theorem reaches_onAnswer (s : State) (named : InFlight → Bool) (e : InFlight → Effect)
    (h : ∀ f, s.port = some f → named f = true → Changes s (e f).1) : Reaches s (onAnswer s named e) := by
  unfold onAnswer; split
  · exact .nothing
  · next f hf => exact reaches_react s _ _ (h f hf)

theorem reaches_onLine (s : State) (b : Bool) (l : Lines) (e : Effect) (h : Changes { s with lines := l } e.1) :
    Reaches s (onLine s b { s with lines := l } e) := by
  unfold onLine; split
  · exact .nothing
  · split
    · exact .line l (by assumption)
    · exact reaches_conclude s e ((Change.lines l).one.trans h)

theorem reaches_takeCue (s : State) (kind : Option CueKind) (effect : State → TakenCue → Effect)
    (h : ∀ t c, Changes t (effect t c).1) : Reaches s (takeCue s kind effect) := by
  unfold takeCue; split
  · next e => exact reaches_react s _ _ fun _ => (changes_consumed s _ _ e).trans (h _ _)
  · exact .nothing

theorem changes_logAfter {s t : State} (h : Changes s t) (c d) : Changes s (t.log c d) := h.trans (changes_log t c d)

theorem reaches_exec (c : Instr) (s : State) (hc : c ≠ .hardwareReset) : Reaches s (exec c s) := by
  have own : ∀ (p : Purpose → Bool) (hp : p .forwarded = false) (f : InFlight), s.port = some f → p f.purpose = true →
      Changes s s.freePort := fun p hp f hf h => changes_dropPort s f hf (by
    cases hq : f.purpose <;> simp_all [Purpose.isForwarded])
  have due : ∀ (b : Bool) (e : Effect), Changes s e.1 → Reaches s (react s b e) := fun b e h =>
    reaches_react s b e fun _ => h
  have cond : ∀ (b : Bool) (t u : State), Changes s t → Changes s u → Changes s (if b = true then t else u) :=
    fun b t u h k => by cases b <;> assumption
  have fwd : ∀ f, s.port = some f → f.purpose.isForwarded = true → ∀ r, Changes s (s.freePort.respond r) :=
    fun f hf h r => (Change.responded r (by simp [carries, hf, h])).one
  cases c <;> simp only [exec]
  case hardwareReset => exact absurd rfl hc
  case resetRelease =>
    unfold execResetRelease; split
    · exact reaches_conclude s _ (Change.reset.one.trans (changes_beginLoad _))
    · exact .nothing
  case forwardedReadArrives a n c =>
    exact reaches_react s _ _ fun h => (Change.presented ⟨.read, a, n, c, []⟩ (by simpa using h)).one
  case forwardedWriteArrives a n c d =>
    exact reaches_react s _ _ fun h => (Change.presented ⟨.write, a, n, c, d⟩ (by simpa using h)).one
  case withdrawnWrite => exact .nothing
  case forwardedData =>
    exact reaches_onAnswer s _ _ fun f hf h => fwd f hf (by simp at h; exact h.1.1) _
  case forwardedWriteDone =>
    exact reaches_onAnswer s _ _ fun f hf h => (fwd f hf (by simp at h; exact h.1) _).trans (changes_observe _ _ _)
  case memoryErrorForwarded =>
    exact reaches_onAnswer s _ _ fun f hf h => changes_logAfter (fwd f hf h .memoryError) _ _
  case directoryLineArrives data =>
    refine reaches_onAnswer s _ _ fun f hf h => ?_
    have h0 := own Purpose.isDirectory rfl f hf (by simp at h; exact h.1)
    dsimp only; split
    · exact h0
    · split
      · exact h0.then (.directory _ rfl)
      · exact h0.trans (changes_judgeImage _ _)
  case directoryReadFailed =>
    refine reaches_onAnswer s _ _ fun f hf h => ?_
    exact changes_logAfter ((own Purpose.isDirectory rfl f hf h).then
      (.directory { s.dir with image := [], load := .idle } rfl)) _ _
  case cueLineArrives data =>
    refine reaches_onAnswer s _ _ fun f hf h => ?_
    have h0 := own Purpose.isCueLine rfl f hf (by simp at h; exact h.1)
    refine cond _ _ _ (h0.trans (changes_enterCues _ _ ?_)) h0
    simpa [cuesOfLine] using entriesDue_le s _
  case cueFetchFailed =>
    refine reaches_onAnswer s _ _ fun f hf h => ?_
    have h0 := changes_logAfter (own Purpose.isCueLine rfl f hf h) .cueFetchFailed [f.addr]
    refine cond _ _ _ (h0.trans (changes_enterCues _ _ ?_)) h0
    simpa [failedEntries] using entriesDue_le s _
  case consumerWriteDone =>
    refine reaches_onAnswer s _ _ fun f hf h => ?_
    have h0 := own Purpose.isConsumer rfl f hf h
    exact cond _ _ _ (h0.then (.cues { s.cue with writePending := false } id)) h0
  case consumerWriteFailed =>
    exact reaches_onAnswer s _ _ fun f hf h => changes_logAfter (own Purpose.isConsumer rfl f hf h) _ _
  case requestScene => exact reaches_takeCue s _ _ changes_cueRequestScene
  case stopScene => exact reaches_takeCue s _ _ changes_cueStopScene
  case stopAll => exact reaches_takeCue s _ _ fun t c => changes_answer ..
  case closeZone => exact reaches_takeCue s _ _ changes_cueCloseZone
  case openZone => exact reaches_takeCue s _ _ changes_cueOpenZone
  case setLanguage => exact reaches_takeCue s _ _ changes_cueSetLanguage
  case setBaseLevel => exact reaches_takeCue s _ _ changes_cueSetBaseLevel
  case houseLights => exact reaches_takeCue s _ _ changes_cueHouseLights
  case homeAxis => exact reaches_takeCue s _ _ changes_cueHomeAxis
  case holdShow => exact reaches_takeCue s _ _ changes_cueHoldShow
  case releaseShow => exact reaches_takeCue s _ _ changes_cueReleaseShow
  case clearFault => exact reaches_takeCue s _ _ changes_cueClearFault
  case enterSafe => exact reaches_takeCue s _ _ changes_cueEnterSafe
  case leaveSafe => exact reaches_takeCue s _ _ changes_cueLeaveSafe
  case restoreShow => exact reaches_takeCue s _ _ changes_cueRestoreShow
  case mark => exact reaches_takeCue s _ _ fun t c => changes_answer ..
  case unknownKind => exact reaches_takeCue s _ _ fun t c => changes_refuse ..
  case failedEntryTake =>
    unfold execFailedEntryTake; split
    · next e => exact due _ _ ((changes_consumed s _ _ e).then (.produced _))
    · exact .nothing
  case reportRecordDone =>
    refine reaches_onAnswer s _ _ fun f hf h => ?_
    dsimp only
    split
    · next hl => exact (Change.written _ (by simp [carriesLive, hf, h, hl])).one
    · exact own Purpose.isRecord rfl f hf h
  case reportWriteFailed =>
    refine reaches_onAnswer s _ _ fun f hf h => changes_logAfter ?_ _ _
    have h0 := own Purpose.isRecord rfl f hf h
    exact cond _ _ _ (h0.then .recordLost) h0
  case producerWriteDone =>
    refine reaches_onAnswer s _ _ fun f hf h => ?_
    have h0 := own Purpose.isProducer rfl f hf h
    exact cond _ _ _ (h0.then .producerDone) h0
  case producerWriteFailed =>
    exact reaches_onAnswer s _ _ fun f hf h => changes_logAfter (own Purpose.isProducer rfl f hf h) _ _
  case guardInputActive l =>
    refine reaches_onLine s _ { s.lines with guard := put s.lines.guard l .active } _ ?_
    unfold guardRises; split
    · exact changes_refl _
    · exact changes_tripGuard _ _
  case guardInputInactive l =>
    refine reaches_onLine s _ { s.lines with guard := put s.lines.guard l .inactive } _ ?_
    unfold guardFalls; split
    · exact changes_refl _
    · exact changes_settleGuard _ _
  case settleDeadline z => exact due _ _ (changes_setZoneKept _ _ _ rfl rfl)
  case visitorLineChange i l =>
    refine reaches_onLine s _ { s.lines with visitor := put s.lines.visitor i l } _ ?_
    split
    · exact changes_setInput _ _ _
    · exact changes_refl _
  case debounceDeadline => exact due _ _ (changes_edge _ _)
  case cooldownDeadline => exact due _ _ (changes_reqKept _ _ rfl)
  case requestExpires => exact due _ _ (changes_dropWhere _ _ _)
  case scriptLineArrives data =>
    refine reaches_onAnswer s _ _ fun f hf h => ?_
    split
    · next k e =>
      have h0 := changes_dropPort s f hf (by rw [e]; rfl)
      split
      · exact h0.trans (changes_enterLine _ _ _)
      · exact h0
    · exact changes_refl s
  case scriptReadFailed =>
    refine reaches_onAnswer s _ _ fun f hf h => ?_
    split
    · next k e => exact (changes_dropPort s f hf (by rw [e]; rfl)).trans (changes_failFetch _ _ _ _)
    · exact changes_refl s
  case waitTimeout =>
    unfold execWaitTimeout; split
    · exact .nothing
    · exact due _ _ (changes_timeOutWait _ _ _)
  case lampFrame => exact due _ _ (changes_lampKept _ _ rfl)
  case clipGroupArrives data =>
    refine reaches_onAnswer s _ _ fun f hf h => ?_
    split
    · next v e =>
      have h0 := changes_dropPort s f hf (by rw [e]; rfl)
      split
      · exact h0.trans (changes_takeClipGroup _ _ _)
      · exact h0
    · exact changes_refl s
  case clipLineArrives data =>
    refine reaches_onAnswer s _ _ fun f hf h => ?_
    split
    · next v e =>
      have h0 := changes_dropPort s f hf (by rw [e]; rfl)
      exact cond _ _ _ (h0.trans (changes_takeClipLine _ _ _)) h0
    · exact changes_refl s
  case clipReadFailed =>
    refine reaches_onAnswer s _ _ fun f hf h => ?_
    split
    · next v e => exact (changes_dropPort s f hf (by rw [e]; rfl)).trans (changes_failVoiceRead _ _ _ _)
    · next v e => exact (changes_dropPort s f hf (by rw [e]; rfl)).trans (changes_failVoiceRead _ _ _ _)
    · exact changes_refl s
  case sampleInstant => exact due _ _ (changes_sampleAll s)
  case cutDeadline => exact due _ _ (changes_endCut s _)
  case homeSwitchActive n =>
    exact reaches_onLine s _ { s.lines with home := put s.lines.home n .active } _ (changes_refl _)
  case homeSwitchInactive n =>
    exact reaches_onLine s _ { s.lines with home := put s.lines.home n .inactive } _ (changes_refl _)
  case stall n =>
    exact reaches_onLine s _ { s.lines with stall := put s.lines.stall n .active } _ (changes_stallRises _ _)
  case stallInputInactive n =>
    exact reaches_onLine s _ { s.lines with stall := put s.lines.stall n .inactive } _ (changes_refl _)
  case powerWarning =>
    exact reaches_onLine s _ { s.lines with power := .active } _ (changes_warnPower _)
  case powerWarningInactive =>
    exact reaches_onLine s _ { s.lines with power := .inactive } _ (changes_refl _)
  case homeNotFound => exact due _ _ ((changes_setAxis s _ _).trans (changes_log _ _ _))
  case moveTimeout => exact due _ _ ((changes_setAxis s _ _).trans (changes_log _ _ _))
  case suspendLimit => exact due _ _ ((changes_setAxis s _ _).trans (changes_log _ _ _))
  case suspendingAtRest => exact due _ _ (changes_setAxis s _ _)
  case maximumSpeedReached => exact due _ _ (changes_nextPart s _)
  case beginToSlow => exact due _ _ (changes_nextPart s _)
  case directionReversal => exact due _ _ (changes_nextPart s _)
  case stepPulse => exact due _ _ (changes_setAxis s _ _)
  case faultPageLineDone =>
    refine reaches_onAnswer s _ _ fun f hf h => ?_
    have h0 := own Purpose.isPage rfl f hf h
    exact cond _ _ _ (h0.trans (changes_pageLineWritten _)) h0
  case faultPageWriteFailed =>
    refine reaches_onAnswer s _ _ fun f hf h => ?_
    have h0 := own Purpose.isPage rfl f hf h
    exact (cond _ _ _ (h0.then (.page { s.fault with writer := none } rfl)) h0).then (.logged _ _ _)
  case snapshotLineDone =>
    refine reaches_onAnswer s _ _ fun f hf h => ?_
    have h0 := own Purpose.isSnapshot rfl f hf h
    exact cond _ _ _ (h0.trans (changes_snapshotLineWritten _)) h0
  case snapshotFailed =>
    refine reaches_onAnswer s _ _ fun f hf h => ?_
    have h0 := own Purpose.isSnapshot rfl f hf h
    exact (cond _ _ _ (h0.trans (changes_ctlKept _ { s.ctl with snapshot := none } rfl)) h0).then (.logged _ _ _)
  case restoreLineArrives data =>
    refine reaches_onAnswer s _ _ fun f hf h => ?_
    have h0 := own Purpose.isRestore rfl f hf (by simp at h; exact h.1)
    split
    · exact h0
    · split
      · exact h0.trans (changes_takeRestoreLine _ _ _)
      · exact h0
  case restoreReadFailed =>
    refine reaches_onAnswer s _ _ fun f hf h => ?_
    have h0 := changes_logAfter (own Purpose.isRestore rfl f hf h) .memoryErrorInternal [f.addr, f.purpose.classCode]
    dsimp only; split
    · exact (h0.trans (changes_ctlKept _ { s.ctl with restore := none } rfl)).then (.produced _)
    · exact h0
  all_goals exact due _ _ (changes_refl s)

end Sys2Proof.Machine
end

