-- ==== Sys2Proof/Laws/Take.lean ====
section
/-! SUPPORT. What the take of a directory leaves alone (R32), field by field, and what it makes of the directory, the zones
and the fault banks. -/

namespace Sys2Proof.Machine.State

variable (s : State) (d : Directory)

/-! ### clearCues -/

@[simp] theorem clearCues_pending : (s.clearCues).pending = s.pending := rfl
@[simp] theorem clearCues_showTime : (s.clearCues).showTime = s.showTime := rfl
@[simp] theorem clearCues_resetLow : (s.clearCues).resetLow = s.resetLow := rfl
@[simp] theorem clearCues_lines : (s.clearCues).lines = s.lines := rfl
@[simp] theorem clearCues_up : (s.clearCues).up = s.up := rfl
@[simp] theorem clearCues_arb : (s.clearCues).arb = s.arb := rfl
@[simp] theorem clearCues_port : (s.clearCues).port = s.port := rfl
@[simp] theorem clearCues_dir : (s.clearCues).dir = s.dir := rfl
@[simp] theorem clearCues_report : (s.clearCues).report = s.report := rfl
@[simp] theorem clearCues_zones : (s.clearCues).zones = s.zones := rfl
@[simp] theorem clearCues_inputs : (s.clearCues).inputs = s.inputs := rfl
@[simp] theorem clearCues_req : (s.clearCues).req = s.req := rfl
@[simp] theorem clearCues_slots : (s.clearCues).slots = s.slots := rfl
@[simp] theorem clearCues_lamp : (s.clearCues).lamp = s.lamp := rfl
@[simp] theorem clearCues_voices : (s.clearCues).voices = s.voices := rfl
@[simp] theorem clearCues_sampleCount : (s.clearCues).sampleCount = s.sampleCount := rfl
@[simp] theorem clearCues_axes : (s.clearCues).axes = s.axes := rfl
@[simp] theorem clearCues_pins : (s.clearCues).pins = s.pins := rfl
@[simp] theorem clearCues_fault : (s.clearCues).fault = s.fault := rfl
@[simp] theorem clearCues_ctl : (s.clearCues).ctl = s.ctl := rfl
@[simp] theorem clearCues_freeDraws : (s.clearCues).freeDraws = s.freeDraws := rfl

/-! ### clearReports -/

@[simp] theorem clearReports_pending : (s.clearReports).pending = s.pending := rfl
@[simp] theorem clearReports_showTime : (s.clearReports).showTime = s.showTime := rfl
@[simp] theorem clearReports_resetLow : (s.clearReports).resetLow = s.resetLow := rfl
@[simp] theorem clearReports_lines : (s.clearReports).lines = s.lines := rfl
@[simp] theorem clearReports_up : (s.clearReports).up = s.up := rfl
@[simp] theorem clearReports_arb : (s.clearReports).arb = s.arb := rfl
@[simp] theorem clearReports_port : (s.clearReports).port = s.port := rfl
@[simp] theorem clearReports_dir : (s.clearReports).dir = s.dir := rfl
@[simp] theorem clearReports_cue : (s.clearReports).cue = s.cue := rfl
@[simp] theorem clearReports_zones : (s.clearReports).zones = s.zones := rfl
@[simp] theorem clearReports_inputs : (s.clearReports).inputs = s.inputs := rfl
@[simp] theorem clearReports_req : (s.clearReports).req = s.req := rfl
@[simp] theorem clearReports_slots : (s.clearReports).slots = s.slots := rfl
@[simp] theorem clearReports_lamp : (s.clearReports).lamp = s.lamp := rfl
@[simp] theorem clearReports_voices : (s.clearReports).voices = s.voices := rfl
@[simp] theorem clearReports_sampleCount : (s.clearReports).sampleCount = s.sampleCount := rfl
@[simp] theorem clearReports_axes : (s.clearReports).axes = s.axes := rfl
@[simp] theorem clearReports_pins : (s.clearReports).pins = s.pins := rfl
@[simp] theorem clearReports_fault : (s.clearReports).fault = s.fault := rfl
@[simp] theorem clearReports_ctl : (s.clearReports).ctl = s.ctl := rfl
@[simp] theorem clearReports_freeDraws : (s.clearReports).freeDraws = s.freeDraws := rfl

/-! ### adopt -/

@[simp] theorem adopt_pending : (s.adopt d).pending = s.pending := rfl
@[simp] theorem adopt_showTime : (s.adopt d).showTime = s.showTime := rfl
@[simp] theorem adopt_resetLow : (s.adopt d).resetLow = s.resetLow := rfl
@[simp] theorem adopt_lines : (s.adopt d).lines = s.lines := rfl
@[simp] theorem adopt_up : (s.adopt d).up = s.up := rfl
@[simp] theorem adopt_arb : (s.adopt d).arb = s.arb := rfl
@[simp] theorem adopt_port : (s.adopt d).port = s.port := rfl
@[simp] theorem adopt_cue : (s.adopt d).cue = s.cue := rfl
@[simp] theorem adopt_report : (s.adopt d).report = s.report := rfl
@[simp] theorem adopt_zones : (s.adopt d).zones = s.zones := rfl
@[simp] theorem adopt_inputs : (s.adopt d).inputs = s.inputs := rfl
@[simp] theorem adopt_req : (s.adopt d).req = s.req := rfl
@[simp] theorem adopt_slots : (s.adopt d).slots = s.slots := rfl
@[simp] theorem adopt_lamp : (s.adopt d).lamp = s.lamp := rfl
@[simp] theorem adopt_voices : (s.adopt d).voices = s.voices := rfl
@[simp] theorem adopt_sampleCount : (s.adopt d).sampleCount = s.sampleCount := rfl
@[simp] theorem adopt_axes : (s.adopt d).axes = s.axes := rfl
@[simp] theorem adopt_pins : (s.adopt d).pins = s.pins := rfl
@[simp] theorem adopt_fault : (s.adopt d).fault = s.fault := rfl
@[simp] theorem adopt_ctl : (s.adopt d).ctl = s.ctl := rfl
@[simp] theorem adopt_freeDraws : (s.adopt d).freeDraws = s.freeDraws := rfl

/-! ### takeZones -/

@[simp] theorem takeZones_pending : (s.takeZones d).pending = s.pending := rfl
@[simp] theorem takeZones_showTime : (s.takeZones d).showTime = s.showTime := rfl
@[simp] theorem takeZones_resetLow : (s.takeZones d).resetLow = s.resetLow := rfl
@[simp] theorem takeZones_lines : (s.takeZones d).lines = s.lines := rfl
@[simp] theorem takeZones_up : (s.takeZones d).up = s.up := rfl
@[simp] theorem takeZones_arb : (s.takeZones d).arb = s.arb := rfl
@[simp] theorem takeZones_port : (s.takeZones d).port = s.port := rfl
@[simp] theorem takeZones_disp : (s.takeZones d).disp = s.disp := rfl
@[simp] theorem takeZones_dir : (s.takeZones d).dir = s.dir := rfl
@[simp] theorem takeZones_cue : (s.takeZones d).cue = s.cue := rfl
@[simp] theorem takeZones_report : (s.takeZones d).report = s.report := rfl
@[simp] theorem takeZones_req : (s.takeZones d).req = s.req := rfl
@[simp] theorem takeZones_slots : (s.takeZones d).slots = s.slots := rfl
@[simp] theorem takeZones_lamp : (s.takeZones d).lamp = s.lamp := rfl
@[simp] theorem takeZones_voices : (s.takeZones d).voices = s.voices := rfl
@[simp] theorem takeZones_sampleCount : (s.takeZones d).sampleCount = s.sampleCount := rfl
@[simp] theorem takeZones_axes : (s.takeZones d).axes = s.axes := rfl
@[simp] theorem takeZones_pins : (s.takeZones d).pins = s.pins := rfl
@[simp] theorem takeZones_fault : (s.takeZones d).fault = s.fault := rfl
@[simp] theorem takeZones_ctl : (s.takeZones d).ctl = s.ctl := rfl
@[simp] theorem takeZones_freeDraws : (s.takeZones d).freeDraws = s.freeDraws := rfl

/-! ### takeLamps -/

@[simp] theorem takeLamps_pending (b : Bool) : (s.takeLamps d b).pending = s.pending := rfl
@[simp] theorem takeLamps_showTime (b : Bool) : (s.takeLamps d b).showTime = s.showTime := rfl
@[simp] theorem takeLamps_resetLow (b : Bool) : (s.takeLamps d b).resetLow = s.resetLow := rfl
@[simp] theorem takeLamps_lines (b : Bool) : (s.takeLamps d b).lines = s.lines := rfl
@[simp] theorem takeLamps_up (b : Bool) : (s.takeLamps d b).up = s.up := rfl
@[simp] theorem takeLamps_arb (b : Bool) : (s.takeLamps d b).arb = s.arb := rfl
@[simp] theorem takeLamps_port (b : Bool) : (s.takeLamps d b).port = s.port := rfl
@[simp] theorem takeLamps_disp (b : Bool) : (s.takeLamps d b).disp = s.disp := rfl
@[simp] theorem takeLamps_dir (b : Bool) : (s.takeLamps d b).dir = s.dir := rfl
@[simp] theorem takeLamps_cue (b : Bool) : (s.takeLamps d b).cue = s.cue := rfl
@[simp] theorem takeLamps_report (b : Bool) : (s.takeLamps d b).report = s.report := rfl
@[simp] theorem takeLamps_zones (b : Bool) : (s.takeLamps d b).zones = s.zones := rfl
@[simp] theorem takeLamps_inputs (b : Bool) : (s.takeLamps d b).inputs = s.inputs := rfl
@[simp] theorem takeLamps_req (b : Bool) : (s.takeLamps d b).req = s.req := rfl
@[simp] theorem takeLamps_slots (b : Bool) : (s.takeLamps d b).slots = s.slots := rfl
@[simp] theorem takeLamps_voices (b : Bool) : (s.takeLamps d b).voices = s.voices := rfl
@[simp] theorem takeLamps_sampleCount (b : Bool) : (s.takeLamps d b).sampleCount = s.sampleCount := rfl
@[simp] theorem takeLamps_axes (b : Bool) : (s.takeLamps d b).axes = s.axes := rfl
@[simp] theorem takeLamps_pins (b : Bool) : (s.takeLamps d b).pins = s.pins := rfl
@[simp] theorem takeLamps_fault (b : Bool) : (s.takeLamps d b).fault = s.fault := rfl
@[simp] theorem takeLamps_ctl (b : Bool) : (s.takeLamps d b).ctl = s.ctl := rfl
@[simp] theorem takeLamps_freeDraws (b : Bool) : (s.takeLamps d b).freeDraws = s.freeDraws := rfl

/-! ### takeAxes -/

@[simp] theorem takeAxes_pending (old : Fin 12 → AxisRecord) : (s.takeAxes old).pending = s.pending := rfl
@[simp] theorem takeAxes_showTime (old : Fin 12 → AxisRecord) : (s.takeAxes old).showTime = s.showTime := rfl
@[simp] theorem takeAxes_resetLow (old : Fin 12 → AxisRecord) : (s.takeAxes old).resetLow = s.resetLow := rfl
@[simp] theorem takeAxes_lines (old : Fin 12 → AxisRecord) : (s.takeAxes old).lines = s.lines := rfl
@[simp] theorem takeAxes_up (old : Fin 12 → AxisRecord) : (s.takeAxes old).up = s.up := rfl
@[simp] theorem takeAxes_arb (old : Fin 12 → AxisRecord) : (s.takeAxes old).arb = s.arb := rfl
@[simp] theorem takeAxes_port (old : Fin 12 → AxisRecord) : (s.takeAxes old).port = s.port := rfl
@[simp] theorem takeAxes_disp (old : Fin 12 → AxisRecord) : (s.takeAxes old).disp = s.disp := rfl
@[simp] theorem takeAxes_dir (old : Fin 12 → AxisRecord) : (s.takeAxes old).dir = s.dir := rfl
@[simp] theorem takeAxes_cue (old : Fin 12 → AxisRecord) : (s.takeAxes old).cue = s.cue := rfl
@[simp] theorem takeAxes_report (old : Fin 12 → AxisRecord) : (s.takeAxes old).report = s.report := rfl
@[simp] theorem takeAxes_zones (old : Fin 12 → AxisRecord) : (s.takeAxes old).zones = s.zones := rfl
@[simp] theorem takeAxes_inputs (old : Fin 12 → AxisRecord) : (s.takeAxes old).inputs = s.inputs := rfl
@[simp] theorem takeAxes_req (old : Fin 12 → AxisRecord) : (s.takeAxes old).req = s.req := rfl
@[simp] theorem takeAxes_slots (old : Fin 12 → AxisRecord) : (s.takeAxes old).slots = s.slots := rfl
@[simp] theorem takeAxes_lamp (old : Fin 12 → AxisRecord) : (s.takeAxes old).lamp = s.lamp := rfl
@[simp] theorem takeAxes_voices (old : Fin 12 → AxisRecord) : (s.takeAxes old).voices = s.voices := rfl
@[simp] theorem takeAxes_sampleCount (old : Fin 12 → AxisRecord) : (s.takeAxes old).sampleCount = s.sampleCount := rfl
@[simp] theorem takeAxes_pins (old : Fin 12 → AxisRecord) : (s.takeAxes old).pins = s.pins := rfl
@[simp] theorem takeAxes_fault (old : Fin 12 → AxisRecord) : (s.takeAxes old).fault = s.fault := rfl
@[simp] theorem takeAxes_ctl (old : Fin 12 → AxisRecord) : (s.takeAxes old).ctl = s.ctl := rfl
@[simp] theorem takeAxes_freeDraws (old : Fin 12 → AxisRecord) : (s.takeAxes old).freeDraws = s.freeDraws := rfl

/-! ### pageAgain -/

@[simp] theorem pageAgain_pending : (s.pageAgain).pending = s.pending := rfl
@[simp] theorem pageAgain_showTime : (s.pageAgain).showTime = s.showTime := rfl
@[simp] theorem pageAgain_resetLow : (s.pageAgain).resetLow = s.resetLow := rfl
@[simp] theorem pageAgain_lines : (s.pageAgain).lines = s.lines := rfl
@[simp] theorem pageAgain_up : (s.pageAgain).up = s.up := rfl
@[simp] theorem pageAgain_arb : (s.pageAgain).arb = s.arb := rfl
@[simp] theorem pageAgain_port : (s.pageAgain).port = s.port := rfl
@[simp] theorem pageAgain_disp : (s.pageAgain).disp = s.disp := rfl
@[simp] theorem pageAgain_dir : (s.pageAgain).dir = s.dir := rfl
@[simp] theorem pageAgain_cue : (s.pageAgain).cue = s.cue := rfl
@[simp] theorem pageAgain_report : (s.pageAgain).report = s.report := rfl
@[simp] theorem pageAgain_zones : (s.pageAgain).zones = s.zones := rfl
@[simp] theorem pageAgain_inputs : (s.pageAgain).inputs = s.inputs := rfl
@[simp] theorem pageAgain_req : (s.pageAgain).req = s.req := rfl
@[simp] theorem pageAgain_slots : (s.pageAgain).slots = s.slots := rfl
@[simp] theorem pageAgain_lamp : (s.pageAgain).lamp = s.lamp := rfl
@[simp] theorem pageAgain_voices : (s.pageAgain).voices = s.voices := rfl
@[simp] theorem pageAgain_sampleCount : (s.pageAgain).sampleCount = s.sampleCount := rfl
@[simp] theorem pageAgain_axes : (s.pageAgain).axes = s.axes := rfl
@[simp] theorem pageAgain_pins : (s.pageAgain).pins = s.pins := rfl
@[simp] theorem pageAgain_ctl : (s.pageAgain).ctl = s.ctl := rfl
@[simp] theorem pageAgain_freeDraws : (s.pageAgain).freeDraws = s.freeDraws := rfl

/-! ### endSnapshot -/

@[simp] theorem endSnapshot_pending : (s.endSnapshot).pending = s.pending := rfl
@[simp] theorem endSnapshot_showTime : (s.endSnapshot).showTime = s.showTime := rfl
@[simp] theorem endSnapshot_resetLow : (s.endSnapshot).resetLow = s.resetLow := rfl
@[simp] theorem endSnapshot_lines : (s.endSnapshot).lines = s.lines := rfl
@[simp] theorem endSnapshot_up : (s.endSnapshot).up = s.up := rfl
@[simp] theorem endSnapshot_arb : (s.endSnapshot).arb = s.arb := rfl
@[simp] theorem endSnapshot_port : (s.endSnapshot).port = s.port := rfl
@[simp] theorem endSnapshot_disp : (s.endSnapshot).disp = s.disp := rfl
@[simp] theorem endSnapshot_dir : (s.endSnapshot).dir = s.dir := rfl
@[simp] theorem endSnapshot_cue : (s.endSnapshot).cue = s.cue := rfl
@[simp] theorem endSnapshot_report : (s.endSnapshot).report = s.report := rfl
@[simp] theorem endSnapshot_zones : (s.endSnapshot).zones = s.zones := rfl
@[simp] theorem endSnapshot_inputs : (s.endSnapshot).inputs = s.inputs := rfl
@[simp] theorem endSnapshot_req : (s.endSnapshot).req = s.req := rfl
@[simp] theorem endSnapshot_slots : (s.endSnapshot).slots = s.slots := rfl
@[simp] theorem endSnapshot_lamp : (s.endSnapshot).lamp = s.lamp := rfl
@[simp] theorem endSnapshot_voices : (s.endSnapshot).voices = s.voices := rfl
@[simp] theorem endSnapshot_sampleCount : (s.endSnapshot).sampleCount = s.sampleCount := rfl
@[simp] theorem endSnapshot_axes : (s.endSnapshot).axes = s.axes := rfl
@[simp] theorem endSnapshot_pins : (s.endSnapshot).pins = s.pins := rfl
@[simp] theorem endSnapshot_fault : (s.endSnapshot).fault = s.fault := rfl
@[simp] theorem endSnapshot_freeDraws : (s.endSnapshot).freeDraws = s.freeDraws := rfl

/-! ### restartCues -/

@[simp] theorem restartCues_pending : (s.restartCues).pending = s.pending := by simp [restartCues]
@[simp] theorem restartCues_showTime : (s.restartCues).showTime = s.showTime := by simp [restartCues]
@[simp] theorem restartCues_resetLow : (s.restartCues).resetLow = s.resetLow := by simp [restartCues]
@[simp] theorem restartCues_lines : (s.restartCues).lines = s.lines := by simp [restartCues]
@[simp] theorem restartCues_up : (s.restartCues).up = s.up := by simp [restartCues]
@[simp] theorem restartCues_dir : (s.restartCues).dir = s.dir := by simp [restartCues]
@[simp] theorem restartCues_zones : (s.restartCues).zones = s.zones := by simp [restartCues]
@[simp] theorem restartCues_inputs : (s.restartCues).inputs = s.inputs := by simp [restartCues]
@[simp] theorem restartCues_req : (s.restartCues).req = s.req := by simp [restartCues]
@[simp] theorem restartCues_slots : (s.restartCues).slots = s.slots := by simp [restartCues]
@[simp] theorem restartCues_lamp : (s.restartCues).lamp = s.lamp := by simp [restartCues]
@[simp] theorem restartCues_voices : (s.restartCues).voices = s.voices := by simp [restartCues]
@[simp] theorem restartCues_sampleCount : (s.restartCues).sampleCount = s.sampleCount := by simp [restartCues]
@[simp] theorem restartCues_axes : (s.restartCues).axes = s.axes := by simp [restartCues]
@[simp] theorem restartCues_pins : (s.restartCues).pins = s.pins := by simp [restartCues]
@[simp] theorem restartCues_fault : (s.restartCues).fault = s.fault := by simp [restartCues]
@[simp] theorem restartCues_ctl : (s.restartCues).ctl = s.ctl := by simp [restartCues]
@[simp] theorem restartCues_freeDraws : (s.restartCues).freeDraws = s.freeDraws := by simp [restartCues]

/-! ### restartReports -/

@[simp] theorem restartReports_pending : (s.restartReports).pending = s.pending := by simp [restartReports]
@[simp] theorem restartReports_showTime : (s.restartReports).showTime = s.showTime := by simp [restartReports]
@[simp] theorem restartReports_resetLow : (s.restartReports).resetLow = s.resetLow := by simp [restartReports]
@[simp] theorem restartReports_lines : (s.restartReports).lines = s.lines := by simp [restartReports]
@[simp] theorem restartReports_up : (s.restartReports).up = s.up := by simp [restartReports]
@[simp] theorem restartReports_dir : (s.restartReports).dir = s.dir := by simp [restartReports]
@[simp] theorem restartReports_cue : (s.restartReports).cue = s.cue := by simp [restartReports]
@[simp] theorem restartReports_zones : (s.restartReports).zones = s.zones := by simp [restartReports]
@[simp] theorem restartReports_inputs : (s.restartReports).inputs = s.inputs := by simp [restartReports]
@[simp] theorem restartReports_req : (s.restartReports).req = s.req := by simp [restartReports]
@[simp] theorem restartReports_slots : (s.restartReports).slots = s.slots := by simp [restartReports]
@[simp] theorem restartReports_lamp : (s.restartReports).lamp = s.lamp := by simp [restartReports]
@[simp] theorem restartReports_voices : (s.restartReports).voices = s.voices := by simp [restartReports]
@[simp] theorem restartReports_sampleCount : (s.restartReports).sampleCount = s.sampleCount := by simp [restartReports]
@[simp] theorem restartReports_axes : (s.restartReports).axes = s.axes := by simp [restartReports]
@[simp] theorem restartReports_pins : (s.restartReports).pins = s.pins := by simp [restartReports]
@[simp] theorem restartReports_fault : (s.restartReports).fault = s.fault := by simp [restartReports]
@[simp] theorem restartReports_ctl : (s.restartReports).ctl = s.ctl := by simp [restartReports]
@[simp] theorem restartReports_freeDraws : (s.restartReports).freeDraws = s.freeDraws := by simp [restartReports]

/-! ### restartPage -/

@[simp] theorem restartPage_pending : (s.restartPage).pending = s.pending := by simp [restartPage]
@[simp] theorem restartPage_showTime : (s.restartPage).showTime = s.showTime := by simp [restartPage]
@[simp] theorem restartPage_resetLow : (s.restartPage).resetLow = s.resetLow := by simp [restartPage]
@[simp] theorem restartPage_lines : (s.restartPage).lines = s.lines := by simp [restartPage]
@[simp] theorem restartPage_up : (s.restartPage).up = s.up := by simp [restartPage]
@[simp] theorem restartPage_disp : (s.restartPage).disp = s.disp := by simp [restartPage]
@[simp] theorem restartPage_dir : (s.restartPage).dir = s.dir := by simp [restartPage]
@[simp] theorem restartPage_cue : (s.restartPage).cue = s.cue := by simp [restartPage]
@[simp] theorem restartPage_report : (s.restartPage).report = s.report := by simp [restartPage]
@[simp] theorem restartPage_zones : (s.restartPage).zones = s.zones := by simp [restartPage]
@[simp] theorem restartPage_inputs : (s.restartPage).inputs = s.inputs := by simp [restartPage]
@[simp] theorem restartPage_req : (s.restartPage).req = s.req := by simp [restartPage]
@[simp] theorem restartPage_slots : (s.restartPage).slots = s.slots := by simp [restartPage]
@[simp] theorem restartPage_lamp : (s.restartPage).lamp = s.lamp := by simp [restartPage]
@[simp] theorem restartPage_voices : (s.restartPage).voices = s.voices := by simp [restartPage]
@[simp] theorem restartPage_sampleCount : (s.restartPage).sampleCount = s.sampleCount := by simp [restartPage]
@[simp] theorem restartPage_axes : (s.restartPage).axes = s.axes := by simp [restartPage]
@[simp] theorem restartPage_pins : (s.restartPage).pins = s.pins := by simp [restartPage]
@[simp] theorem restartPage_ctl : (s.restartPage).ctl = s.ctl := by simp [restartPage]
@[simp] theorem restartPage_freeDraws : (s.restartPage).freeDraws = s.freeDraws := by simp [restartPage]

/-! ### dropSnapshot -/

@[simp] theorem dropSnapshot_pending : (s.dropSnapshot).pending = s.pending := by simp [dropSnapshot]
@[simp] theorem dropSnapshot_showTime : (s.dropSnapshot).showTime = s.showTime := by simp [dropSnapshot]
@[simp] theorem dropSnapshot_resetLow : (s.dropSnapshot).resetLow = s.resetLow := by simp [dropSnapshot]
@[simp] theorem dropSnapshot_lines : (s.dropSnapshot).lines = s.lines := by simp [dropSnapshot]
@[simp] theorem dropSnapshot_up : (s.dropSnapshot).up = s.up := by simp [dropSnapshot]
@[simp] theorem dropSnapshot_disp : (s.dropSnapshot).disp = s.disp := by simp [dropSnapshot]
@[simp] theorem dropSnapshot_dir : (s.dropSnapshot).dir = s.dir := by simp [dropSnapshot]
@[simp] theorem dropSnapshot_cue : (s.dropSnapshot).cue = s.cue := by simp [dropSnapshot]
@[simp] theorem dropSnapshot_report : (s.dropSnapshot).report = s.report := by simp [dropSnapshot]
@[simp] theorem dropSnapshot_zones : (s.dropSnapshot).zones = s.zones := by simp [dropSnapshot]
@[simp] theorem dropSnapshot_inputs : (s.dropSnapshot).inputs = s.inputs := by simp [dropSnapshot]
@[simp] theorem dropSnapshot_req : (s.dropSnapshot).req = s.req := by simp [dropSnapshot]
@[simp] theorem dropSnapshot_slots : (s.dropSnapshot).slots = s.slots := by simp [dropSnapshot]
@[simp] theorem dropSnapshot_lamp : (s.dropSnapshot).lamp = s.lamp := by simp [dropSnapshot]
@[simp] theorem dropSnapshot_voices : (s.dropSnapshot).voices = s.voices := by simp [dropSnapshot]
@[simp] theorem dropSnapshot_sampleCount : (s.dropSnapshot).sampleCount = s.sampleCount := by simp [dropSnapshot]
@[simp] theorem dropSnapshot_axes : (s.dropSnapshot).axes = s.axes := by simp [dropSnapshot]
@[simp] theorem dropSnapshot_pins : (s.dropSnapshot).pins = s.pins := by simp [dropSnapshot]
@[simp] theorem dropSnapshot_fault : (s.dropSnapshot).fault = s.fault := by simp [dropSnapshot]
@[simp] theorem dropSnapshot_freeDraws : (s.dropSnapshot).freeDraws = s.freeDraws := by simp [dropSnapshot]

/-! ### takeCueRing -/

@[simp] theorem takeCueRing_pending : (s.takeCueRing d).pending = s.pending := by unfold takeCueRing; split <;> simp
@[simp] theorem takeCueRing_showTime : (s.takeCueRing d).showTime = s.showTime := by unfold takeCueRing; split <;> simp
@[simp] theorem takeCueRing_resetLow : (s.takeCueRing d).resetLow = s.resetLow := by unfold takeCueRing; split <;> simp
@[simp] theorem takeCueRing_lines : (s.takeCueRing d).lines = s.lines := by unfold takeCueRing; split <;> simp
@[simp] theorem takeCueRing_up : (s.takeCueRing d).up = s.up := by unfold takeCueRing; split <;> simp
@[simp] theorem takeCueRing_zones : (s.takeCueRing d).zones = s.zones := by unfold takeCueRing; split <;> simp
@[simp] theorem takeCueRing_inputs : (s.takeCueRing d).inputs = s.inputs := by unfold takeCueRing; split <;> simp
@[simp] theorem takeCueRing_req : (s.takeCueRing d).req = s.req := by unfold takeCueRing; split <;> simp
@[simp] theorem takeCueRing_slots : (s.takeCueRing d).slots = s.slots := by unfold takeCueRing; split <;> simp
@[simp] theorem takeCueRing_lamp : (s.takeCueRing d).lamp = s.lamp := by unfold takeCueRing; split <;> simp
@[simp] theorem takeCueRing_voices : (s.takeCueRing d).voices = s.voices := by unfold takeCueRing; split <;> simp
@[simp] theorem takeCueRing_sampleCount : (s.takeCueRing d).sampleCount = s.sampleCount := by unfold takeCueRing; split <;> simp
@[simp] theorem takeCueRing_axes : (s.takeCueRing d).axes = s.axes := by unfold takeCueRing; split <;> simp
@[simp] theorem takeCueRing_pins : (s.takeCueRing d).pins = s.pins := by unfold takeCueRing; split <;> simp
@[simp] theorem takeCueRing_fault : (s.takeCueRing d).fault = s.fault := by unfold takeCueRing; split <;> simp
@[simp] theorem takeCueRing_ctl : (s.takeCueRing d).ctl = s.ctl := by unfold takeCueRing; split <;> simp
@[simp] theorem takeCueRing_freeDraws : (s.takeCueRing d).freeDraws = s.freeDraws := by unfold takeCueRing; split <;> simp

/-! ### takeRings -/

@[simp] theorem takeRings_pending : (s.takeRings d).pending = s.pending := by unfold takeRings; split <;> simp
@[simp] theorem takeRings_showTime : (s.takeRings d).showTime = s.showTime := by unfold takeRings; split <;> simp
@[simp] theorem takeRings_resetLow : (s.takeRings d).resetLow = s.resetLow := by unfold takeRings; split <;> simp
@[simp] theorem takeRings_lines : (s.takeRings d).lines = s.lines := by unfold takeRings; split <;> simp
@[simp] theorem takeRings_up : (s.takeRings d).up = s.up := by unfold takeRings; split <;> simp
@[simp] theorem takeRings_zones : (s.takeRings d).zones = s.zones := by unfold takeRings; split <;> simp
@[simp] theorem takeRings_inputs : (s.takeRings d).inputs = s.inputs := by unfold takeRings; split <;> simp
@[simp] theorem takeRings_req : (s.takeRings d).req = s.req := by unfold takeRings; split <;> simp
@[simp] theorem takeRings_slots : (s.takeRings d).slots = s.slots := by unfold takeRings; split <;> simp
@[simp] theorem takeRings_lamp : (s.takeRings d).lamp = s.lamp := by unfold takeRings; split <;> simp
@[simp] theorem takeRings_voices : (s.takeRings d).voices = s.voices := by unfold takeRings; split <;> simp
@[simp] theorem takeRings_sampleCount : (s.takeRings d).sampleCount = s.sampleCount := by unfold takeRings; split <;> simp
@[simp] theorem takeRings_axes : (s.takeRings d).axes = s.axes := by unfold takeRings; split <;> simp
@[simp] theorem takeRings_pins : (s.takeRings d).pins = s.pins := by unfold takeRings; split <;> simp
@[simp] theorem takeRings_fault : (s.takeRings d).fault = s.fault := by unfold takeRings; split <;> simp
@[simp] theorem takeRings_ctl : (s.takeRings d).ctl = s.ctl := by unfold takeRings; split <;> simp
@[simp] theorem takeRings_freeDraws : (s.takeRings d).freeDraws = s.freeDraws := by unfold takeRings; split <;> simp

/-! ### takeBlocks -/

@[simp] theorem takeBlocks_pending : (s.takeBlocks d).pending = s.pending := by simp [takeBlocks]
@[simp] theorem takeBlocks_showTime : (s.takeBlocks d).showTime = s.showTime := by simp [takeBlocks]
@[simp] theorem takeBlocks_resetLow : (s.takeBlocks d).resetLow = s.resetLow := by simp [takeBlocks]
@[simp] theorem takeBlocks_lines : (s.takeBlocks d).lines = s.lines := by simp [takeBlocks]
@[simp] theorem takeBlocks_up : (s.takeBlocks d).up = s.up := by simp [takeBlocks]
@[simp] theorem takeBlocks_req : (s.takeBlocks d).req = s.req := by simp [takeBlocks]
@[simp] theorem takeBlocks_slots : (s.takeBlocks d).slots = s.slots := by simp [takeBlocks]
@[simp] theorem takeBlocks_voices : (s.takeBlocks d).voices = s.voices := by simp [takeBlocks]
@[simp] theorem takeBlocks_sampleCount : (s.takeBlocks d).sampleCount = s.sampleCount := by simp [takeBlocks]
@[simp] theorem takeBlocks_pins : (s.takeBlocks d).pins = s.pins := by simp [takeBlocks]
@[simp] theorem takeBlocks_freeDraws : (s.takeBlocks d).freeDraws = s.freeDraws := by simp [takeBlocks]

/-! ### What the take makes of the rest -/

theorem dir_takeRings : (s.takeRings d).dir = (s.adopt d).dir := by
  unfold takeRings takeCueRing; split <;> split <;> simp

theorem dir_takeBlocks : (s.takeBlocks d).dir = (s.adopt d).dir := by simp [takeBlocks, dir_takeRings]

@[simp] theorem taken_takeBlocks : (s.takeBlocks d).dir.taken = some d := by rw [dir_takeBlocks]; rfl

theorem zones_takeBlocks : (s.takeBlocks d).zones = (s.takeRings d |>.takeZones d).zones := by simp [takeBlocks]

/-- A zone after a take (R58). -/
theorem zone_takeBlocks (z : Fin 8) : (s.takeBlocks d).zone z = takenZone s.lines (d.zones.get z) := by
  have h : (s.takeRings d |>.takeZones d).zones.get z = takenZone (s.takeRings d).lines (d.zones.get z) := by
    simp [takeZones]
  unfold zone
  rw [zones_takeBlocks, h, takeRings_lines]

@[simp] theorem houseLights_takeBlocks : (s.takeBlocks d).lamp.houseLights = s.lamp.houseLights := by
  simp [takeBlocks, takeLamps]

@[simp] theorem banks_takeBlocks : (s.takeBlocks d).fault.banks = s.fault.banks := by
  simp [takeBlocks, restartPage, pageAgain]

@[simp] theorem showState_takeBlocks : (s.takeBlocks d).ctl.state = s.ctl.state := by
  simp [takeBlocks, dropSnapshot, endSnapshot]

end Sys2Proof.Machine.State
end

