-- ==== Sys2Proof/Laws/Keeps.lean ====
section
/-! SUPPORT. Each law of Safety.lean stands over every small change. -/

namespace Sys2Proof.Machine

namespace State

/-! ## What the removal of requests leaves alone -/

/-- Everything a removal of requests leaves alone. -/
structure Dropped (s t : State) : Prop where
  showTime : t.showTime = s.showTime
  arb : t.arb = s.arb
  port : t.port = s.port
  up : t.up = s.up
  dir : t.dir = s.dir
  cue : t.cue = s.cue
  slots : t.slots = s.slots
  lamp : t.lamp = s.lamp
  voices : t.voices = s.voices
  axes : t.axes = s.axes
  pins : t.pins = s.pins
  fault : t.fault = s.fault
  ctl : t.ctl = s.ctl
  closed : ∀ z, (t.zone z).closed = (s.zone z).closed
  owner : ∀ z, (t.zone z).owner = (s.zone z).owner
  queue : t.req.queue.Sublist s.req.queue
  counts : t.report.producer = s.report.producer ∧ t.report.consumer = s.report.consumer ∧
    t.report.writePending = s.report.writePending
  length : s.report.queue.length ≤ 16 → t.report.queue.length ≤ 16
  lost : s.report.lost ≤ 255 → t.report.lost ≤ 255

theorem joined_length (r : ReportUnit) (x : QueuedRecord) (h : r.queue.length ≤ 16) : (r.joined x).queue.length ≤ 16 := by
  unfold ReportUnit.joined Config.reportQueueSize; split
  · simp; omega
  · exact h

theorem joined_lost (r : ReportUnit) (x : QueuedRecord) (h : r.lost ≤ 255) : (r.joined x).lost ≤ 255 := by
  unfold ReportUnit.joined; split
  · exact h
  · exact Nat.min_le_left _ _

theorem Dropped.refl (s : State) : s.Dropped s :=
  ⟨rfl, rfl, rfl, rfl, rfl, rfl, rfl, rfl, rfl, rfl, rfl, rfl, rfl, fun _ => rfl, fun _ => rfl, .refl _, ⟨rfl, rfl, rfl⟩, id, id⟩

theorem dropped_drop (s : State) (r : Request) (x) : s.Dropped (s.drop r x) where
  showTime := rfl
  arb := rfl
  port := rfl
  up := rfl
  dir := rfl
  cue := rfl
  slots := rfl
  lamp := rfl
  voices := rfl
  axes := rfl
  pins := rfl
  fault := rfl
  ctl := rfl
  closed z := by
    have e : ((s.drop r x).zone z).closed = (((s.setQueue (s.req.queue.filter fun q => q.scene != r.scene)).unreserve
        r.scene).zone z).closed := rfl
    rw [e]; unfold unreserve; rw [zone_mapZones]; split <;> (try split) <;> rfl
  owner z := by
    have e : ((s.drop r x).zone z).owner = (((s.setQueue (s.req.queue.filter fun q => q.scene != r.scene)).unreserve
        r.scene).zone z).owner := rfl
    rw [e]; unfold unreserve; rw [zone_mapZones]; split <;> (try split) <;> rfl
  queue := List.filter_sublist
  counts := joined_counts _ _
  length := joined_length _ _
  lost := joined_lost _ _

theorem Dropped.trans {s t u : State} (h : s.Dropped t) (k : t.Dropped u) : s.Dropped u :=
  ⟨k.1.trans h.1, k.2.trans h.2, k.3.trans h.3, k.4.trans h.4, k.5.trans h.5, k.6.trans h.6, k.7.trans h.7,
    k.8.trans h.8, k.9.trans h.9, k.10.trans h.10, k.11.trans h.11, k.12.trans h.12, k.13.trans h.13,
    fun z => (k.14 z).trans (h.14 z), fun z => (k.15 z).trans (h.15 z), k.16.trans h.16,
    ⟨k.17.1.trans h.17.1, k.17.2.1.trans h.17.2.1, k.17.2.2.trans h.17.2.2⟩, k.18 ∘ h.18, k.19 ∘ h.19⟩

theorem dropped_foldl (l : List Request) (s : State) (x) : s.Dropped (l.foldl (fun t r => t.drop r x) s) := by
  induction l generalizing s with
  | nil => exact .refl s
  | cons r l ih => exact (dropped_drop s r x).trans (ih _)

theorem dropped_dropWhere (s : State) (p x) : s.Dropped (s.dropWhere p x) := dropped_foldl _ s x

theorem queue_foldl (l : List Request) (s : State) (x) (q : Request)
    (h : q ∈ (l.foldl (fun t r => t.drop r x) s).req.queue) : ∀ r ∈ l, q.scene ≠ r.scene := by
  induction l generalizing s with
  | nil => simp
  | cons r l ih =>
    intro r' hr
    rcases List.mem_cons.1 hr with rfl | hr
    · have hq := (dropped_foldl l _ x).queue.subset h
      have : q ∈ s.req.queue.filter fun q => q.scene != r'.scene := hq
      simpa using (List.mem_filter.1 this).2
    · exact ih _ h r' hr

/-- No request that a removal names is left in the queue. -/
theorem queue_dropWhere (s : State) (p x) (q : Request) (h : q ∈ (s.dropWhere p x).req.queue) : p q = false := by
  by_contra hp
  have hs := (dropped_dropWhere s p x).queue.subset h
  exact queue_foldl _ s x q h q (List.mem_filter.2 ⟨hs, by simpa using hp⟩) rfl

end State

open State

/-! ## R126 -/

theorem Change.houseLights {s t : State} (c : Change s t) (h : HouseLightsLaw s) : HouseLightsLaw t := by
  unfold HouseLightsLaw at *
  cases c with
  | closed z =>
    have d := dropped_dropWhere (s.setZone z { s.zone z with closed := true })
      (fun r => (s.sceneRecord r.scene).hasZone z.val) .zoneClosed
    rw [d.ctl, d.lamp]; exact h
  | lamp l hl => exact fun e => hl e (h e)
  | control c hc => exact fun e => (hc e).elim h id
  | taken d hd =>
    rw [showState_takeBlocks, houseLights_takeBlocks]; exact h
  | _ => exact h

/-! ## R180 -/

theorem Change.severe {s t : State} (c : Change s t) (h : SevereLaw s) : SevereLaw t := by
  have log : ∀ m c d, SevereLaw (s.logMarking m c d) := by
    intro m c d b hb
    have e : (s.logMarking m c d).bank b =
        if c.bank.place = b.place then (s.decideFault c d).record else s.bank b := put_get _ _ _ _
    rw [e] at hb
    split at hb
    · next hp =>
      have hcb : c.bank = b := by revert hp; cases c.bank <;> cases b <;> simp [Bank.place]
      subst hcb
      unfold decideFault BankRecord.decide at hb
      by_cases hs : c.severity = .severe
      · revert hs; cases c <;> simp [FaultCode.severity, FaultCode.bank]
      · have h' := h c.bank
        split at hb
        · exact h' hb
        · split at hb
          · simp [BankRecord.isSevere, hs] at hb
          · split at hb
            · simp only [BankRecord.isSevere] at hb h'
              exact h' (by simpa using hb)
            · simp [BankRecord.isSevere, hs] at hb
    · exact h b hb
  cases c with
  | closed z =>
    intro b hb
    have d := dropped_dropWhere (s.setZone z { s.zone z with closed := true })
      (fun r => (s.sceneRecord r.scene).hasZone z.val) .zoneClosed
    apply h b
    unfold bank at *
    rw [d.fault] at hb; exact hb
  | logged m c d => exact log m c d
  | page f hf =>
    intro b hb
    apply h b
    have : (State.bank { s with fault := f } b) = s.bank b := by unfold bank; rw [hf]
    rwa [this] at hb
  | cleared b' =>
    intro b hb
    have e : (s.setBank b' .invalid).bank b = if b'.place = b.place then .invalid else s.bank b := put_get _ _ _ _
    rw [e] at hb
    split at hb
    · cases hb
    · exact h b hb
  | taken d hd =>
    intro b hb
    apply h b
    unfold bank at *
    rwa [banks_takeBlocks] at hb
  | _ => exact h

/-! ## R165 -/

theorem slotPlace_ne_voicePlace (k v : Fin 8) : State.slotPlace k ≠ State.voicePlace v := by
  intro h; have := congrArg Fin.val h; simp [State.slotPlace, State.voicePlace] at this; omega

theorem slotPlace_inj {j k : Fin 8} : State.slotPlace j = State.slotPlace k ↔ j = k := by
  simp [State.slotPlace, Fin.ext_iff]

theorem voicePlace_inj {j k : Fin 8} : State.voicePlace j = State.voicePlace k ↔ j = k := by
  simp [State.voicePlace, Fin.ext_iff]

theorem Change.pin {s t : State} (c : Change s t) (h : PinLaw s) : PinLaw t := by
  have same : ∀ u : State, u.pins = s.pins → u.slots = s.slots → u.voices = s.voices → PinLaw u := by
    intro u e1 e2 e3
    unfold PinLaw State.slot State.voice at *
    rw [e1, e2, e3]; exact h
  cases c with
  | closed z =>
    have d := dropped_dropWhere (s.setZone z { s.zone z with closed := true })
      (fun r => (s.sceneRecord r.scene).hasZone z.val) .zoneClosed
    exact same _ d.pins d.slots d.voices
  | slot k x hx =>
    refine ⟨fun j => ?_, h.2⟩
    have h1 := h.1 j
    show (s.pins.get (slotPlace j)).isSome = _
    rw [h1, slot_setSlot]; split
    · next e => subst e; by_cases hf : x.state = .free <;> simp [hf, hx.1, bne, ← hx]
    · rfl
  | freed k x hx =>
    constructor
    · intro j
      have h1 := h.1 j
      show ((put s.pins (slotPlace k) none).get (slotPlace j)).isSome = (((put s.slots k x).get j).state != .free)
      rw [put_get, put_get]
      by_cases e : k = j
      · subst e; simp [hx]
      · simp only [slotPlace_inj, if_neg e]; exact h1
    · intro v
      have h1 := h.2 v
      show ((put s.pins (slotPlace k) none).get (voicePlace v)).isSome = (s.voice v).state.holdsPin
      rw [put_get, if_neg (slotPlace_ne_voicePlace _ _)]; exact h1
  | occupied k scene x p hx =>
    constructor
    · intro j
      have h1 := h.1 j
      show ((put s.pins (slotPlace k) (some p)).get (slotPlace j)).isSome = (((put s.slots k x).get j).state != .free)
      rw [put_get, put_get]
      by_cases e : k = j
      · subst e; simp [hx]
      · simp only [slotPlace_inj, if_neg e]; exact h1
    · intro v
      have h1 := h.2 v
      show ((put s.pins (slotPlace k) (some p)).get (voicePlace v)).isSome = (s.voice v).state.holdsPin
      rw [put_get, if_neg (slotPlace_ne_voicePlace _ _)]; exact h1
  | voices vs hv => exact ⟨h.1, fun v => (h.2 v).trans (hv v).symm⟩
  | pinnedVoice v x p hp =>
    constructor
    · intro j
      have h1 := h.1 j
      show ((put s.pins (voicePlace v) p).get (slotPlace j)).isSome = ((s.slot j).state != .free)
      rw [put_get, if_neg (slotPlace_ne_voicePlace _ _).symm]; exact h1
    · intro w
      have h1 := h.2 w
      show ((put s.pins (voicePlace v) p).get (voicePlace w)).isSome = (((put s.voices v x).get w).state.holdsPin)
      rw [put_get, put_get]
      by_cases e : v = w
      · subst e; simp [hp]
      · simp only [voicePlace_inj, if_neg e]; exact h1
  | taken d hd =>
    exact same _ (takeBlocks_pins s d) (takeBlocks_slots s d) (takeBlocks_voices s d)
  | _ => exact same _ rfl rfl rfl

theorem hasMember_all : ∀ z : Fin 8, hasMember 0xFF z.val = true := by decide

/-! ## R59 -/

theorem Change.owner {s t : State} (c : Change s t) (h : OwnerLaw s) : OwnerLaw t := by
  have same : ∀ u : State, (∀ z, (u.zone z).owner = (s.zone z).owner) → u.slots = s.slots → OwnerLaw u := by
    intro u e1 e2 z k hz
    rw [e1] at hz
    unfold State.slot; rw [e2]; exact h z k hz
  cases c with
  | closed z =>
    have d := dropped_dropWhere (s.setZone z { s.zone z with closed := true })
      (fun r => (s.sceneRecord r.scene).hasZone z.val) .zoneClosed
    refine same _ (fun y => (d.owner y).trans ?_) d.slots
    rw [zone_setZone]; split
    · next e => subst e; rfl
    · rfl
  | slot k x hx =>
    intro z j hz
    have h1 := h z j hz
    rw [slot_setSlot]; split
    · next e => subst e; exact fun hf => h1 (hx.1 hf)
    · exact h1
  | freed k x hx =>
    intro z j hz
    have hz' : ((s.releaseZones k).zone z).owner = some j := hz
    unfold releaseZones at hz'
    rw [zone_mapZones] at hz'
    have hm : hasMember 0xFF z.val = true := hasMember_all z
    rw [if_pos hm] at hz'
    split at hz'
    · cases hz'
    · next hne =>
      have h1 := h z j hz'
      show ((put s.slots k x).get j).state ≠ .free
      rw [put_get, if_neg (by rintro rfl; exact hne hz')]; exact h1
  | occupied k scene x p hx =>
    intro z j hz
    have hz' : ((s.claim k scene).zone z).owner = some j := hz
    unfold claim at hz'
    rw [zone_mapZones] at hz'
    show ((put s.slots k x).get j).state ≠ .free
    rw [put_get]
    split
    · exact hx
    · next hkj =>
      split at hz'
      · exact absurd (by simpa using hz') hkj
      · exact h z j hz'
  | zones zs hc ho =>
    intro z k hz
    rcases ho z with e | e
    · have : (zs.get z).owner = some k := hz
      rw [e] at this; cases this
    · have : (zs.get z).owner = some k := hz
      rw [e] at this; exact h z k this
  | taken d hd =>
    intro z k hz
    have e : ((s.takeBlocks d).zone z).owner = none := by
      rw [zone_takeBlocks]; rfl
    rw [e] at hz; cases hz
  | _ => exact same _ (fun _ => rfl) rfl

/-! ## R31 -/

theorem Change.directoryLaw {s t : State} (c : Change s t) (h : DirectoryLaw s) : DirectoryLaw t := by
  have same : ∀ u : State, u.dir.taken = s.dir.taken → DirectoryLaw u := by
    intro u e d hd; rw [e] at hd; exact h d hd
  cases c with
  | closed z =>
    have d := dropped_dropWhere (s.setZone z { s.zone z with closed := true })
      (fun r => (s.sceneRecord r.scene).hasZone z.val) .zoneClosed
    exact same _ (by rw [d.dir]; rfl)
  | directory d hd => exact same _ hd
  | taken d hd =>
    intro d' hd'
    have e : (s.takeBlocks d).dir.taken = some d := taken_takeBlocks s d
    rw [e] at hd'; cases hd'; exact hd
  | _ => exact same _ rfl

/-! ## R74 -/

/-- The Request Queue's law, said of the scenes that wait. -/
theorem requestLaw_iff (s : State) : RequestLaw s ↔
    (s.req.queue.map Request.scene).length ≤ 16 ∧ (s.req.queue.map Request.scene).Nodup ∧
      ∀ n ∈ s.req.queue.map Request.scene, ∀ z ∈ (s.sceneRecord n).zones, (s.zone z).closed = false := by
  simp [RequestLaw]

theorem sceneRecord_congr {s t : State} (h : t.dir.taken = s.dir.taken) (n : Fin 32) : t.sceneRecord n = s.sceneRecord n := by
  unfold sceneRecord; rw [h]

/-- Fewer requests, the same directory and no more closed zones keep the law. -/
theorem RequestLaw.of_fewer {s t : State} (h : RequestLaw s) (hd : t.dir.taken = s.dir.taken)
    (hq : (t.req.queue.map Request.scene).Sublist (s.req.queue.map Request.scene))
    (hc : ∀ z, (t.zone z).closed = true → (s.zone z).closed = true) : RequestLaw t := by
  rw [requestLaw_iff] at *
  refine ⟨hq.length_le.trans h.1, h.2.1.sublist hq, fun n hn z hz => ?_⟩
  rw [sceneRecord_congr hd] at hz
  have h1 := h.2.2 n (hq.subset hn) z hz
  by_contra h2
  exact absurd (hc z (by simpa using h2)) (by simp [h1])

theorem Change.request {s t : State} (c : Change s t) (h : RequestLaw s) : RequestLaw t := by
  cases c with
  | closed z =>
    generalize hp : (fun r : Request => (s.sceneRecord r.scene).hasZone z.val) = p
    have d := dropped_dropWhere (s.setZone z { s.zone z with closed := true }) p .zoneClosed
    have hq := queue_dropWhere (s.setZone z { s.zone z with closed := true }) p .zoneClosed
    generalize (s.setZone z { s.zone z with closed := true }).dropWhere p .zoneClosed = t at *
    have e : t.dir.taken = s.dir.taken := by rw [d.dir]; rfl
    refine ⟨d.queue.length_le.trans h.1, h.2.1.sublist (d.queue.map _), fun r hr y hy => ?_⟩
    rw [sceneRecord_congr e] at hy
    rw [d.closed, zone_setZone]
    have h1 := h.2.2 r (d.queue.subset hr) y hy
    split
    · next ez =>
      subst ez
      have h2 := hq r hr
      subst hp
      have h3 : hasMember (s.sceneRecord r.scene).zoneSet z.val = true := by
        simpa [SceneRecord.zones, zonesOf] using (List.mem_filter.1 hy).2
      simp [SceneRecord.hasZone, h3] at h2
    · exact h1
  | freed k x hx =>
    refine h.of_fewer rfl (.refl _) fun z hz => ?_
    have e : (((s.releaseZones k).zone z)).closed = (s.zone z).closed := by
      unfold releaseZones; rw [zone_mapZones]; (repeat' split) <;> rfl
    exact e ▸ hz
  | occupied k scene x p hx =>
    refine h.of_fewer rfl (.refl _) fun z hz => ?_
    have e : (((s.claim k scene).zone z)).closed = (s.zone z).closed := by
      unfold claim; rw [zone_mapZones]; (repeat' split) <;> rfl
    exact e ▸ hz
  | zones zs hc ho => exact h.of_fewer rfl (.refl _) hc
  | requests r hr => exact h.of_fewer rfl hr fun _ e => e
  | queued scene origin restart hl hn hz =>
    rw [requestLaw_iff] at *
    have e : ((s.enqueue scene origin restart).req.queue.map Request.scene) = s.req.queue.map Request.scene ++ [scene] := by
      simp [enqueue]
    rw [e]
    refine ⟨by simp; omega, ?_, fun n hm z hz' => ?_⟩
    · refine List.nodup_append.2 ⟨h.2.1, by simp, fun a ha b hb => ?_⟩
      obtain ⟨r, hr, rfl⟩ := List.mem_map.1 ha
      have := List.find?_eq_none.1 hn r hr
      simp at hb this
      rw [hb]; exact this
    · rcases List.mem_append.1 hm with hm | hm
      · exact h.2.2 n hm z hz'
      · rw [List.mem_singleton] at hm; subst hm; exact hz z hz'
  | directory d hd => exact h.of_fewer hd (.refl _) fun _ e => e
  | taken d hd =>
    rw [requestLaw_iff] at *
    rw [takeBlocks_req]
    refine ⟨h.1, h.2.1, fun n _ z _ => ?_⟩
    rw [zone_takeBlocks]; rfl
  | _ => exact h.of_fewer rfl (.refl _) fun _ e => e

/-! ## R39, R49, R22 -/

theorem Withdraws.of_eq {s t : State} (h : t.arb = s.arb) (k : t.port = s.port) : Withdraws s t :=
  ⟨by rw [h], by rw [h], fun _ => .inr (by rw [h]), fun _ => .inr (by rw [h]), by rw [h], by rw [h], .inl k⟩

theorem Withdraws.trans {s t u : State} (h : Withdraws s t) (k : Withdraws t u) : Withdraws s u where
  forwarded := k.forwarded.trans h.forwarded
  wait := k.wait.trans h.wait
  voice v := by
    rcases k.voice v with e | e
    · exact .inl e
    · rw [e]; exact h.voice v
  script v := by
    rcases k.script v with e | e
    · exact .inl e
    · rw [e]; exact h.script v
  lookups := k.lookups.trans h.lookups
  writebacks := k.writebacks.trans h.writebacks
  port := by
    rcases k.port with e | ⟨f, e1, e2⟩
    · rw [e]; exact h.port
    · rcases h.port with e' | ⟨g, e3, e4⟩
      · exact .inr ⟨f, e' ▸ e1, e2⟩
      · rw [e4] at e1; cases e1
        exact .inr ⟨g, e3, e2⟩

theorem Withdraws.keep {s t u : State} (h : Withdraws s t) (ha : u.arb = t.arb) (hp : u.port = t.port) : Withdraws s u :=
  h.trans (.of_eq ha hp)

theorem withdraws_withdrawLookup (s : State) (w) : Withdraws s (s.withdrawLookup w) :=
  ⟨rfl, rfl, fun _ => .inr rfl, fun _ => .inr rfl, List.filter_sublist, .refl _, .inl rfl⟩

theorem withdraws_withdrawWrite (s : State) (w) : Withdraws s (s.withdrawWrite w) :=
  ⟨rfl, rfl, fun _ => .inr rfl, fun _ => .inr rfl, .refl _, List.filter_sublist, .inl rfl⟩

theorem withdraws_restartCues (s : State) : Withdraws s s.restartCues := by
  refine Withdraws.keep ?_ (clearCues_arb _) (clearCues_port _)
  refine Withdraws.keep ?_ (lose_arb _ _) (lose_port _ _)
  exact (((withdraws_withdrawLookup s _).trans (withdraws_withdrawWrite _ _)).trans (withdraws_discard _ _)).trans
    (withdraws_discard _ _)

theorem withdraws_restartReports (s : State) : Withdraws s s.restartReports := by
  refine Withdraws.keep ?_ (clearReports_arb _) (clearReports_port _)
  refine Withdraws.keep ?_ (lose_arb _ _) (lose_port _ _)
  exact (((withdraws_withdrawWrite s _).trans (withdraws_withdrawWrite _ _)).trans (withdraws_discard _ _)).trans
    (withdraws_discard _ _)

theorem withdraws_takeRings (s : State) (d : Directory) : Withdraws s (s.takeRings d) := by
  have h0 : Withdraws s (s.adopt d) := .of_eq (by simp) (by simp)
  have h1 : Withdraws s (s.takeCueRing d) := by
    unfold takeCueRing; split
    · exact h0.trans (withdraws_restartCues _)
    · exact h0
  unfold takeRings; split
  · exact h1.trans (withdraws_restartReports _)
  · exact h1

theorem withdraws_takeBlocks (s : State) (d : Directory) : Withdraws s (s.takeBlocks d) := by
  have h1 : Withdraws s ((((s.takeRings d).takeZones d).takeLamps d s.dir.taken.isNone).takeAxes s.axisRecord) :=
    (withdraws_takeRings s d).trans (.of_eq (by simp) (by simp))
  have h2 : ∀ t : State, Withdraws t t.restartPage := fun t => by
    refine Withdraws.keep ?_ (pageAgain_arb _) (pageAgain_port _)
    exact (withdraws_withdrawWrite t _).trans (withdraws_discard _ _)
  have h3 : ∀ t : State, Withdraws t t.dropSnapshot := fun t => by
    refine Withdraws.keep ?_ (endSnapshot_arb _) (endSnapshot_port _)
    exact (withdraws_withdrawWrite t _).trans (withdraws_discard _ _)
  exact (h1.trans (h2 _)).trans (h3 _)

theorem report_takeBlocks (s : State) (d : Directory) : (s.takeBlocks d).report = (s.takeRings d).report := by
  simp [takeBlocks]

theorem cue_takeBlocks (s : State) (d : Directory) : (s.takeBlocks d).cue = (s.takeRings d).cue := by
  simp [takeBlocks]

/-- The Cue Unit after a take (R48). -/
theorem cue_takeRings (s : State) (d : Directory) :
    (s.takeRings d).cue = if s.cueRestarts d then ⟨0, 0, 0, [], true⟩ else s.cue := by
  have h : (s.takeCueRing d).cue = if s.cueRestarts d then ⟨0, 0, 0, [], true⟩ else s.cue := by
    unfold takeCueRing; split
    · simp [restartCues, clearCues]
    · simp
  rw [← h]; unfold takeRings; split <;> simp

theorem report_takeCueRing (s : State) (d : Directory) :
    (s.takeCueRing d).report = if s.cueRestarts d then s.report.losing s.cue.queue.length else s.report := by
  unfold takeCueRing; split
  · simp [restartCues]
  · simp

/-- The Report Unit after a take (R54). -/
theorem report_takeRings (s : State) (d : Directory) :
    (s.takeRings d).report =
      if s.reportRestarts d then
        { (s.takeCueRing d).report.losing (s.takeCueRing d).report.queue.length with
          queue := [], producer := 0, consumer := 0, writePending := true }
      else (s.takeCueRing d).report := by
  unfold takeRings; split
  · simp [restartReports, clearReports]
  · rfl

theorem losing_lost (r : ReportUnit) (n : Nat) : (r.losing n).lost ≤ 255 := Nat.min_le_left _ _

theorem Change.bounds {s t : State} (c : Change s t) (h : BoundsLaw s) : BoundsLaw t := by
  obtain ⟨h1, h2, h3, h4⟩ := h
  have same : ∀ u : State, u.report = s.report → u.cue = s.cue → u.arb = s.arb → BoundsLaw u := by
    intro u e1 e2 e3
    unfold BoundsLaw; rw [e1, e2, e3]; exact ⟨h1, h2, h3, h4⟩
  cases c with
  | closed z =>
    have d := dropped_dropWhere (s.setZone z { s.zone z with closed := true })
      (fun r => (s.sceneRecord r.scene).hasZone z.val) .zoneClosed
    exact ⟨d.length h1, d.lost h2, by rw [d.cue]; exact h3, by rw [d.arb]; exact h4⟩
  | produced r => exact ⟨joined_length _ _ h1, joined_lost _ _ h2, h3, h4⟩
  | logged m c d =>
    have e : (s.logMarking m c d).report = s.reportFault c d := rfl
    refine ⟨?_, ?_, h3, h4⟩ <;> rw [e] <;> unfold reportFault <;> split
    · exact joined_length _ _ h1
    · exact h1
    · exact joined_lost _ _ h2
    · exact h2
  | lost n => exact ⟨h1, losing_lost _ _, h3, h4⟩
  | withdrawn a p w => exact ⟨h1, h2, h3, w.wait ▸ h4⟩
  | cues c hc => exact ⟨h1, h2, hc h3, h4⟩
  | consumerRead i hi => exact ⟨h1, h2, h3, h4⟩
  | producerDone => exact ⟨h1, h2, h3, h4⟩
  | presented t ht => exact ⟨h1, h2, h3, Nat.zero_le _⟩
  | written n hl =>
    refine ⟨?_, ?_, h3, h4⟩
    · show s.report.queue.tail.length ≤ 16
      rw [List.length_tail]; omega
    · show s.report.lost - n ≤ 255
      omega
  | recordLost =>
    refine ⟨?_, losing_lost _ _, h3, h4⟩
    show s.report.queue.tail.length ≤ 16
    rw [List.length_tail]; omega
  | taken d hd =>
    have e : (s.takeCueRing d).report.queue.length ≤ 16 ∧ (s.takeCueRing d).report.lost ≤ 255 := by
      rw [report_takeCueRing]; split
      · exact ⟨h1, losing_lost _ _⟩
      · exact ⟨h1, h2⟩
    refine ⟨?_, ?_, ?_, ?_⟩
    · rw [report_takeBlocks, report_takeRings]; split
      · simp
      · exact e.1
    · rw [report_takeBlocks, report_takeRings]; split
      · exact losing_lost _ _
      · exact e.2
    · rw [cue_takeBlocks, cue_takeRings]; split
      · simp
      · exact h3
    · rw [(withdraws_takeBlocks s d).wait]; exact h4
  | _ => exact same _ rfl rfl rfl

/-! ## R21 -/

/-- The Memory Port's law between the changes of an event, before the requests due are raised and granted. -/
def PortInside (s : State) : Prop :=
  (s.arb.forwarded = true → s.up.held.isSome = true) ∧
    (s.carries Purpose.isForwarded = true → s.arb.forwarded = false ∧ s.up.held.isSome = true) ∧
    (s.arb.writebacks ≠ [] → s.dir.taken.isSome = true)

theorem Withdraws.carries {s t : State} (w : Withdraws s t) (p : Purpose → Bool) : t.carries p = s.carries p := by
  unfold State.carries
  rcases w.port with e | ⟨f, e1, e2⟩
  · rw [e]
  · rw [e1, e2]

theorem PortInside.withdraws {s t : State} (h : PortInside s) (w : Withdraws s t) (hu : t.up = s.up)
    (hd : s.dir.taken.isSome = true → t.dir.taken.isSome = true) : PortInside t := by
  unfold PortInside
  rw [hu]
  refine ⟨fun e => h.1 (w.forwarded ▸ e), fun e => ?_, fun e => hd (h.2.2 fun e' => e ?_)⟩
  · rw [w.carries] at e
    exact ⟨w.forwarded.trans (h.2.1 e).1, (h.2.1 e).2⟩
  · have := w.writebacks
    rw [e'] at this
    exact List.sublist_nil.1 this

theorem Change.port {s t : State} (c : Change s t) (h : PortInside s) : PortInside t := by
  have same : ∀ u : State, u.arb = s.arb → u.port = s.port → u.up = s.up → u.dir.taken = s.dir.taken → PortInside u := by
    intro u e1 e2 e3 e4
    unfold PortInside State.carries at *; rw [e1, e2, e3, e4]; exact h
  cases c with
  | closed z =>
    have d := dropped_dropWhere (s.setZone z { s.zone z with closed := true })
      (fun r => (s.sceneRecord r.scene).hasZone z.val) .zoneClosed
    exact same _ d.arb d.port d.up (by rw [d.dir]; rfl)
  | withdrawn a p w =>
    exact h.withdraws w rfl id
  | directory d hd => exact same _ rfl rfl rfl hd
  | answered hn => exact ⟨h.1, fun e => by simp [State.carries] at e, h.2.2⟩
  | responded r hf =>
    refine ⟨fun e => ?_, fun e => by simp [State.carries, respond] at e, h.2.2⟩
    have e' : s.arb.forwarded = true := e
    rw [(h.2.1 hf).1] at e'; cases e'
  | presented t ht =>
    refine ⟨fun _ => rfl, fun e => ?_, h.2.2⟩
    have := (h.2.1 e).2
    rw [ht] at this; cases this
  | written n hl => exact ⟨h.1, fun e => by simp [State.carries, recordWritten] at e, h.2.2⟩
  | taken d hd =>
    exact h.withdraws (withdraws_takeBlocks s d) (takeBlocks_up s d) fun _ => by simp
  | _ => exact same _ rfl rfl rfl rfl

/-! ## R49 -/

theorem Withdraws.carriesLive {s t : State} (w : Withdraws s t) (p : Purpose → Bool) (h : t.carriesLive p = true) :
    s.carriesLive p = true := by
  unfold State.carriesLive at *
  rcases w.port with e | ⟨f, e1, e2⟩
  · rwa [e] at h
  · rw [e2] at h; simp at h

theorem Withdraws.writeWaits {s t : State} (w : Withdraws s t) (x : Writer) (h : t.writeWaits x = true) :
    s.writeWaits x = true := by
  unfold State.writeWaits at *
  simp only [List.contains_iff_mem] at *
  exact w.writebacks.subset h

/-- Withdrawals keep the ring's law. -/
theorem RingLaw.withdraws {s t : State} (h : RingLaw s) (w : Withdraws s t) (hd : t.dir.taken = s.dir.taken)
    (hp : t.report.producer = s.report.producer) (hc : t.report.consumer = s.report.consumer) : RingLaw t := by
  refine ⟨h.1.sublist w.writebacks, fun e => h.2.1 ⟨w.writeWaits _ e.1, w.carries _ ▸ e.2⟩, fun d e => ?_⟩
  rw [hd] at e
  rw [hp, hc]
  refine ⟨(h.2.2 d e).1, fun k => (h.2.2 d e).2 (k.imp (w.writeWaits _) (w.carriesLive _))⟩

/-- A free port keeps the ring's law. -/
theorem RingLaw.free {s t : State} (h : RingLaw s) (hq : t.arb.writebacks = s.arb.writebacks) (hp : t.port = none)
    (hd : t.dir.taken = s.dir.taken) (e1 : t.report.producer = s.report.producer)
    (e2 : t.report.consumer = s.report.consumer) : RingLaw t := by
  refine ⟨hq ▸ h.1, fun e => by simp [State.carries, hp] at e, fun d e => ?_⟩
  rw [hd] at e
  rw [e1, e2]
  refine ⟨(h.2.2 d e).1, fun k => (h.2.2 d e).2 (k.imp ?_ ?_)⟩
  · intro k; unfold State.writeWaits at *; rwa [hq] at k
  · intro k; simp [State.carriesLive, hp] at k

/-- A taken directory's Report Ring has slots (R29). -/
theorem reportSlots_pos (d : Directory) (h : ∀ c ∈ geometryChecks d ++ recordChecks d, c.holds = true) :
    0 < d.reportSlots := by
  have := h ⟨5, 0, _⟩ (List.mem_append_left _ (by unfold geometryChecks; dsimp only; simp only [List.mem_cons]; tauto))
  simp [ringHolds] at this
  omega

theorem Change.ring {s t : State} (c : Change s t) (h : RingLaw s) : RingLaw t := by
  have same : ∀ u : State, u.arb.writebacks = s.arb.writebacks → u.port = s.port → u.dir.taken = s.dir.taken →
      u.report.producer = s.report.producer → u.report.consumer = s.report.consumer → RingLaw u := by
    intro u e1 e2 e3 e4 e5
    unfold RingLaw State.carries State.carriesLive State.writeWaits at *; rw [e1, e2, e3, e4, e5]; exact h
  cases c with
  | closed z =>
    have d := dropped_dropWhere (s.setZone z { s.zone z with closed := true })
      (fun r => (s.sceneRecord r.scene).hasZone z.val) .zoneClosed
    exact same _ (by rw [d.arb]; rfl) d.port (by rw [d.dir]; rfl) d.counts.1 d.counts.2.1
  | produced r => exact same _ rfl rfl rfl (joined_counts _ _).1 (joined_counts _ _).2.1
  | logged m c d =>
    have := s.reportFault_counts c d
    exact same _ rfl rfl rfl this.1 this.2.1
  | withdrawn a p w => exact h.withdraws w rfl rfl rfl
  | directory d hd => exact same _ rfl rfl hd rfl rfl
  | consumerRead i hi =>
    refine ⟨h.1, h.2.1, fun d e => ?_⟩
    have h3 := h.2.2 d e
    exact ⟨hi.trans h3.1, fun k => hi.trans_lt (h3.2 k)⟩
  | answered hn => exact h.free rfl rfl rfl rfl rfl
  | responded r hf => exact h.free rfl rfl rfl rfl rfl
  | written n hl =>
    have hc : s.carries Purpose.isRecord = true := by
      unfold State.carriesLive State.carries at *
      cases hp : s.port with
      | none => simp [hp] at hl
      | some f => simp [hp] at hl ⊢; exact hl.2
    have hw : s.writeWaits .record = false := by
      by_contra hw
      exact h.2.1 ⟨by simpa using hw, hc⟩
    refine ⟨h.1, fun e => by simp [State.carries, recordWritten] at e, fun d e => ?_⟩
    have h3 := (h.2.2 d e).2 (.inr hl)
    refine ⟨?_, fun k => ?_⟩
    · show (s.report.producer + 1 - s.report.consumer).toNat ≤ d.reportSlots
      have e' : s.report.producer + 1 - s.report.consumer = (s.report.producer - s.report.consumer) + 1 := by
        rw [BitVec.sub_eq_add_neg, BitVec.sub_eq_add_neg, BitVec.add_assoc, BitVec.add_comm 1, BitVec.add_assoc]
      rw [e', BitVec.toNat_add]
      exact (Nat.mod_le _ _).trans h3
    · rcases k with k | k
      · exact absurd (show s.writeWaits .record = true from k) (by simp [hw])
      · simp [State.carriesLive, recordWritten] at k
  | taken d hd =>
    have w := withdraws_takeBlocks s d
    have hpos := reportSlots_pos d hd.holds
    refine ⟨h.1.sublist w.writebacks, fun e => h.2.1 ⟨w.writeWaits _ e.1, w.carries _ ▸ e.2⟩, fun d' e => ?_⟩
    rw [taken_takeBlocks] at e
    cases e
    rw [report_takeBlocks, report_takeRings]
    split
    · simp [hpos]
    · next hr =>
      have e1 : (s.takeCueRing d).report.producer = s.report.producer ∧
          (s.takeCueRing d).report.consumer = s.report.consumer := by
        rw [report_takeCueRing]; split <;> exact ⟨rfl, rfl⟩
      rw [e1.1, e1.2]
      unfold reportRestarts at hr
      split at hr
      · simp at hr
      · next old ho =>
        simp at hr
        rw [← hr.2]
        exact ⟨(h.2.2 old ho).1, fun k => (h.2.2 old ho).2 (k.imp (w.writeWaits _) (w.carriesLive _))⟩
  | _ => exact same _ rfl rfl rfl rfl rfl

end Sys2Proof.Machine
end

