-- ==== Sys2Proof/Laws/EventEnd.lean ====
section
/-! SUPPORT. Each law of Safety.lean stands over the end of an event, which restores the Memory Port's law and the attention
output's. -/

namespace Sys2Proof.Machine

open State

/-- A law of the interior of the part alone stands over the end of an event. -/
theorem interior_settle (s : State) : SameInterior s s.settle := sameInterior_of_eq (closes_settle s).1

theorem HouseLightsLaw.settle {s : State} (h : HouseLightsLaw s) : HouseLightsLaw s.settle := by
  have e := interior_settle s
  have e1 : s.settle.ctl = s.ctl := e.ctl
  have e2 : s.settle.lamp = s.lamp := e.lamp
  unfold HouseLightsLaw; rw [e1, e2]; exact h

theorem PinLaw.settle {s : State} (h : PinLaw s) : PinLaw s.settle := by
  have e := interior_settle s
  have e1 : s.settle.pins = s.pins := e.pins
  have e2 : s.settle.slots = s.slots := e.slots
  have e3 : s.settle.voices = s.voices := e.voices
  unfold PinLaw State.slot State.voice; rw [e1, e2, e3]; exact h

theorem OwnerLaw.settle {s : State} (h : OwnerLaw s) : OwnerLaw s.settle := by
  have e := interior_settle s
  have e1 : s.settle.zones = s.zones := e.zones
  have e2 : s.settle.slots = s.slots := e.slots
  unfold OwnerLaw State.slot State.zone; rw [e1, e2]; exact h

theorem DirectoryLaw.settle {s : State} (h : DirectoryLaw s) : DirectoryLaw s.settle := by
  have e1 : s.settle.dir = s.dir := (interior_settle s).dir
  unfold DirectoryLaw; rw [e1]; exact h

theorem RequestLaw.settle {s : State} (h : RequestLaw s) : RequestLaw s.settle := by
  have e := interior_settle s
  have e1 : s.settle.req = s.req := e.req
  have e2 : s.settle.zones = s.zones := e.zones
  have e3 : s.settle.dir = s.dir := e.dir
  refine h.of_fewer (by rw [e3]) (by rw [e1]) fun z hz => ?_
  unfold State.zone at *; rwa [e2] at hz

/-! ## What one grant does -/

/-- What one grant makes of a state whose Memory Port is free (R21). -/
inductive Granted (s : State) : State → Prop
  | idle (c : RobinClass) (h : (s.arb.forwarded = true → s.up.held.isSome = true) →
      (s.arb.writebacks ≠ [] → s.dir.taken.isSome = true) → ¬ s.requestWaits) :
      Granted s { s with arb := { s.arb with classPtr := c } }
  | read (a : Arbiter) (p : Purpose) (r : ReadRequest) (hf : a.forwarded = s.arb.forwarded)
      (hw : a.writebacks = s.arb.writebacks) (hb : s.arb.forwardedWait ≤ 4 → a.forwardedWait ≤ 4)
      (h1 : p.isForwarded = false) (h2 : p.isRecord = false) :
      Granted s { s with arb := a, port := some ⟨p, .read, r.addr, r.length, [], true⟩ }
  | write (a : Arbiter) (w : Writer) (rest : List Writer) (d : Directory) (hd : s.dir.taken = some d)
      (hl : s.arb.writebacks = w :: rest) (hf : a.forwarded = s.arb.forwarded) (hw : a.writebacks = rest)
      (hb : s.arb.forwardedWait ≤ 4 → a.forwardedWait ≤ 4) :
      Granted s { s with arb := a, port := some ⟨(s.writeOf d w).1, .write, (s.writeOf d w).2.1,
                                                  (s.writeOf d w).2.2.length, (s.writeOf d w).2.2, true⟩ }
  | forwarded (t : Transaction) (hf : s.arb.forwarded = true) (hu : s.up.held = some t) : Granted s (s.grantForwarded t)

theorem granted_voice (s : State) (v : Fin 8) (r : ReadRequest) : Granted s (s.grantVoice v r) := by
  unfold grantVoice countWait; split
  · exact .read { s.arb with voice := put s.arb.voice v none, voicePtr := v
                             forwardedWait := min Config.forwardedBound (s.arb.forwardedWait + 1) }
      (.clipLine v) r rfl rfl (fun _ => Nat.min_le_left _ _) rfl rfl
  · exact .read { s.arb with voice := put s.arb.voice v none, voicePtr := v } (.clipLine v) r rfl rfl id rfl rfl

theorem granted_class (s : State) (c : RobinClass) (t : State) (h : s.grantClass c = some t) (e : RobinClass) :
    Granted s { t with arb := { t.arb with classPtr := e } } := by
  cases c <;> simp only [grantClass] at h
  · obtain ⟨⟨v, r⟩, -, rfl⟩ := Option.map_eq_some_iff.1 h
    unfold grantVoice countWait; split
    · exact .read { s.arb with voice := put s.arb.voice v none, voicePtr := v, classPtr := e
                               forwardedWait := min Config.forwardedBound (s.arb.forwardedWait + 1) }
        (.clipLine v) r rfl rfl (fun _ => Nat.min_le_left _ _) rfl rfl
    · exact .read { s.arb with voice := put s.arb.voice v none, voicePtr := v, classPtr := e } (.clipLine v) r rfl rfl id
        rfl rfl
  · obtain ⟨⟨v, r⟩, -, rfl⟩ := Option.map_eq_some_iff.1 h
    unfold grantScript countWait; split
    · exact .read { s.arb with script := put s.arb.script v none, slotPtr := v, classPtr := e
                               forwardedWait := min Config.forwardedBound (s.arb.forwardedWait + 1) }
        (.script v) r rfl rfl (fun _ => Nat.min_le_left _ _) rfl rfl
    · exact .read { s.arb with script := put s.arb.script v none, slotPtr := v, classPtr := e } (.script v) r rfl rfl id
        rfl rfl
  · split at h
    · cases h
    · next l rest _ =>
      cases h
      have h1 : l.who.purpose.isForwarded = false ∧ l.who.purpose.isRecord = false := by cases l.who <;> exact ⟨rfl, rfl⟩
      unfold grantLookup countWait; split
      · exact .read { s.arb with lookups := rest, classPtr := e
                                 forwardedWait := min Config.forwardedBound (s.arb.forwardedWait + 1) }
          l.who.purpose ⟨l.addr, 64⟩ rfl rfl (fun _ => Nat.min_le_left _ _) h1.1 h1.2
      · exact .read { s.arb with lookups := rest, classPtr := e } l.who.purpose ⟨l.addr, 64⟩ rfl rfl id h1.1 h1.2
  · split at h
    · cases h
    · next w rest hl =>
      cases h
      unfold grantWrite; split
      · next hn => exact .idle e fun _ k => by have := k (by simp [hl]); simp [hn] at this
      · next d hs =>
        unfold countWait; split
        · exact .write { s.arb with writebacks := rest, classPtr := e
                                    forwardedWait := min Config.forwardedBound (s.arb.forwardedWait + 1) }
            w rest d hs hl rfl rfl fun _ => Nat.min_le_left _ _
        · exact .write { s.arb with writebacks := rest, classPtr := e } w rest d hs hl rfl rfl id

theorem firstWaiting_none {requests : Vector (Option ReadRequest) 8} {order : List (Fin 8)}
    (h : firstWaiting requests order = none) {i : Fin 8} (hi : i ∈ order) : requests.get i = none := by
  have := List.findSome?_eq_none_iff.1 h i hi
  simpa using this

theorem mem_after (p i : Fin 8) : i ∈ after p := by revert p i; decide +kernel

/-- The Memory Port is busy, or one grant is made (R21). -/
theorem granted_grant (s : State) :
    (s.port.isSome = true ∧ s.grant = s) ∨ (s.port = none ∧ Granted s s.grant) := by
  have hfwd : ∀ u, s.forwardedGrant = some u → Granted s u := by
    intro u h
    unfold forwardedGrant at h
    split at h
    · next hf =>
      obtain ⟨t, h1, h2⟩ := Option.map_eq_some_iff.1 h
      exact h2 ▸ .forwarded t hf h1
    · cases h
  by_cases hp : s.port.isSome = true
  · left; unfold grant; simp [hp]
  right
  refine ⟨by simpa using hp, ?_⟩
  unfold grant
  rw [if_neg hp]
  dsimp only
  split
  · rename_i u heq
    split at heq
    · exact hfwd _ heq
    · cases heq
  · exact granted_voice ..
  · cases h : s.forwardedGrant with
    | some u => exact hfwd u h
    | none =>
      show Granted s s.grantRobin
      unfold grantRobin
      cases hr : ((classesAfter s.arb.classPtr).findSome? fun c =>
        (s.grantClass c).map fun t => { t with arb := { t.arb with classPtr := c } }) with
      | some t =>
        obtain ⟨c, -, hc⟩ := List.exists_of_findSome?_eq_some hr
        obtain ⟨u, hu, rfl⟩ := Option.map_eq_some_iff.1 hc
        exact granted_class s c u hu c
      | none =>
        refine .idle s.arb.classPtr fun hf _ hw => ?_
        have hn : ∀ c, s.grantClass c = none := fun c => by
          have := List.findSome?_eq_none_iff.1 hr c (by cases s.arb.classPtr <;> cases c <;> simp [classesAfter])
          simpa using this
        rcases hw with hw | ⟨v, hv⟩ | ⟨k, hk⟩ | hl | hb
        · obtain ⟨t, ht⟩ := Option.isSome_iff_exists.1 (hf hw)
          simp [forwardedGrant, hw, ht] at h
        · have := hn .voice
          simp only [grantClass, Option.map_eq_none_iff] at this
          rw [firstWaiting_none this (mem_after _ v)] at hv; cases hv
        · have := hn .script
          simp only [grantClass, Option.map_eq_none_iff] at this
          rw [firstWaiting_none this (mem_after _ k)] at hk; cases hk
        · have := hn .lookup
          simp only [grantClass] at this
          split at this
          · exact hl ‹_›
          · cases this
        · have := hn .writeback
          simp only [grantClass] at this
          split at this
          · exact hb ‹_›
          · cases this

/-! ## Laws the Arbiter can touch -/

/-- A law that the raising of requests, a grant and the attention output keep stands over the end of an event. -/
theorem settle_of {P : State → Prop} (raise : ∀ t, P t → P t.raiseAll) (grant : ∀ t, P t → P t.grant)
    (attend : ∀ t, P t → P t.attend) {s : State} (h : P s) : P s.settle :=
  attend _ (grant _ (raise _ (grant _ (raise _ h))))

theorem grantForwarded_of {P : State → Prop} (s : State) (t : Transaction)
    (pass : P { s with arb := { s.arb with forwarded := false, forwardedWait := 0 }
                       port := some ⟨.forwarded, t.kind, t.addr.toNat, t.length, t.data, true⟩ })
    (answer : ∀ r, P (({ s with arb := { s.arb with forwarded := false, forwardedWait := 0 } } : State).respond r))
    (log : ∀ u c d, P u → P (u.log c d)) : P (s.grantForwarded t) := by
  unfold grantForwarded; dsimp only
  split
  · exact pass
  · exact answer _
  · exact log _ _ _ (answer _)
  · split
    · unfold lockedReload; split
      · exact log _ _ _ (log _ _ _ (answer _))
      · exact log _ _ _ (answer _)
    · exact log _ _ _ (answer _)

theorem SevereLaw.settle {s : State} (h : SevereLaw s) : SevereLaw s.settle := by
  have same : ∀ t u : State, u.fault.banks = t.fault.banks → SevereLaw t → SevereLaw u := by
    intro t u e h b hb
    apply h b
    unfold State.bank at *
    rwa [e] at hb
  refine settle_of (P := SevereLaw) (fun t h => ?_) (fun t h => ?_) (fun t h => same _ _ rfl h) h
  · obtain ⟨a, d, w, e, -, -⟩ := t.raised_raiseAll
    exact same t _ (by rw [e]) h
  · rcases t.grant_cases with ⟨-, e⟩ | ⟨-, ⟨a, p, e, -⟩ | ⟨x, -, -, e⟩⟩
    · rw [e]; exact h
    · rw [e]; exact same t _ rfl h
    · rw [e]
      exact grantForwarded_of t x (same t _ rfl h) (fun _ => same t _ rfl h) fun u c d k => (Change.logged true c d).severe k

theorem BoundsLaw.settle {s : State} (h : BoundsLaw s) : BoundsLaw s.settle := by
  have same : ∀ t u : State, u.report = t.report → u.cue = t.cue → u.arb.forwardedWait ≤ 4 → BoundsLaw t → BoundsLaw u := by
    intro t u e1 e2 e3 h
    unfold BoundsLaw; rw [e1, e2]; exact ⟨h.1, h.2.1, h.2.2.1, e3⟩
  refine settle_of (P := BoundsLaw) (fun t h => ?_) (fun t h => ?_) (fun t h => h) h
  · obtain ⟨a, d, w, e, -, e2⟩ := t.raised_raiseAll
    exact same t _ (by rw [e]) (by rw [e]) (by rw [e]; exact e2.le.trans h.2.2.2) h
  · rcases granted_grant t with ⟨-, e⟩ | ⟨-, g⟩
    · rw [e]; exact h
    · generalize t.grant = u at g
      cases g with
      | idle c hw => exact same t _ rfl rfl h.2.2.2 h
      | read a p r hf hw hb h1 h2 => exact same t _ rfl rfl (hb h.2.2.2) h
      | write a w rest d hd hl hf hw hb => exact same t _ rfl rfl (hb h.2.2.2) h
      | forwarded x hf hu =>
        exact grantForwarded_of t x (same t _ rfl rfl (Nat.zero_le _) h) (fun _ => same t _ rfl rfl (Nat.zero_le _) h)
          fun u c d k => (Change.logged true c d).bounds k

/-! ## The raising of requests -/

/-- What the raising of requests makes of the WRITEBACK order: requesters join it, none twice, the record write only when
it is due and the others only once a directory is taken. -/
inductive Joins (s : State) : List Writer → Prop
  | none : Joins s s.arb.writebacks
  | more (l : List Writer) (w : Writer) (h : Joins s l) (hn : w ∉ l) (ht : s.dir.taken.isSome = true)
      (hr : w = .record → s.recordDue = true) : Joins s (l ++ [w])

/-- Read requests alone are raised: the WRITEBACK order stands. -/
def ReadsRaised (s t : State) : Prop := ∃ a : Arbiter, t = { s with arb := a } ∧ a.writebacks = s.arb.writebacks

theorem ReadsRaised.trans {s t u : State} (h : ReadsRaised s t) (k : ReadsRaised t u) : ReadsRaised s u := by
  obtain ⟨a, rfl, h⟩ := h
  obtain ⟨b, rfl, k⟩ := k
  exact ⟨b, rfl, k.trans h⟩

theorem readsRaised_lookup (s : State) (w : Looker) (o : Option Nat) : ReadsRaised s (s.raiseLookup w o) := by
  cases o with
  | none => exact ⟨_, rfl, rfl⟩
  | some a => exact ⟨_, rfl, rfl⟩

theorem readsRaised_all (s : State) : ReadsRaised s s.raiseLookups.raiseReads := by
  have fold : ∀ (l : List (Fin 8)) (s : State),
      ReadsRaised s (l.foldl (fun t v => t.raiseLookup (.clipGroup v) (t.groupWant v)) s) := by
    intro l
    induction l with
    | nil => exact fun s => ⟨_, rfl, rfl⟩
    | cons a l ih => exact fun s => (readsRaised_lookup s _ _).trans (ih _)
  have h1 : ReadsRaised s s.raiseLookups :=
    (((readsRaised_lookup s _ _).trans (readsRaised_lookup _ _ _)).trans (fold _ _)).trans (readsRaised_lookup _ _ _)
  exact h1.trans ⟨_, rfl, rfl⟩

theorem Joins.raise {s t : State} (h : Joins s t.arb.writebacks) (w : Writer) (b : Bool)
    (hb : b = true → s.dir.taken.isSome = true ∧ t.writeWaits w = false ∧ (w = .record → s.recordDue = true)) :
    Joins s (t.raiseWrite w b).arb.writebacks := by
  cases b with
  | false => exact h
  | true =>
    obtain ⟨h1, h2, h3⟩ := hb rfl
    exact .more _ w h (by simpa [State.writeWaits] using h2) h1 h3

theorem raiseAll_joins (s : State) : Joins s s.raiseAll.arb.writebacks := by
  obtain ⟨a, e, ha⟩ := readsRaised_all s
  show Joins s (s.raiseLookups.raiseReads.raiseWrites).arb.writebacks
  rw [e]
  have h0 : Joins s (State.arb { s with arb := a }).writebacks := by rw [show _ = _ from ha]; exact .none
  have hw : ∀ w, State.writeWaits { s with arb := a } w = s.writeWaits w := fun w => by simp [State.writeWaits, ha]
  generalize ht : ({ s with arb := a } : State) = t at h0 hw
  have hd : t.dir = s.dir := by rw [← ht]
  have hr : t.recordDue = s.recordDue := by
    unfold State.recordDue State.carries; rw [hw, hd]; rw [← ht]
  have hda : ∀ (u : State) w b, (u.raiseWrite w b).dir = u.dir := fun u w b => by cases b <;> rfl
  have hdb : ∀ u : State, u.beginPage.dir = u.dir := fun u => by unfold beginPage; split <;> rfl
  unfold raiseWrites
  dsimp only
  have h1 := h0.raise .record t.recordDue fun k => by
    refine ⟨?_, ?_, fun _ => hr ▸ k⟩
    · unfold State.recordDue at k; rw [hd] at k; split at k
      · cases k
      · simp [*]
    · unfold State.recordDue at k; split at k
      · cases k
      · simp at k; exact k.1.1.2
  have d1 := hda t .record t.recordDue
  generalize t.raiseWrite .record t.recordDue = u1 at h1 d1
  have h2 := h1.raise .producer u1.producerDue fun k => by
    simp [producerDue, d1, hd] at k
    exact ⟨k.1.1.1, k.1.2, fun h => by cases h⟩
  have d2 := (hda u1 .producer u1.producerDue).trans d1
  generalize u1.raiseWrite .producer u1.producerDue = u2 at h2 d2
  have h3 := h2.raise .consumer u2.consumerDue fun k => by
    simp [consumerDue, d2, hd] at k
    exact ⟨k.1.1.1, k.1.2, fun h => by cases h⟩
  have d3 := (hda u2 .consumer u2.consumerDue).trans d2
  generalize u2.raiseWrite .consumer u2.consumerDue = u3 at h3 d3
  have h3' : Joins s u3.beginPage.arb.writebacks := by
    have : u3.beginPage.arb = u3.arb := by unfold beginPage; split <;> rfl
    rw [this]; exact h3
  have d4 := (hdb u3).trans d3
  have h4 := h3'.raise .page u3.beginPage.pageDue fun k => by
    simp [pageDue, d4, hd] at k
    exact ⟨k.1.1.1, k.1.2, fun h => by cases h⟩
  have d5 := (hda u3.beginPage .page u3.beginPage.pageDue).trans d4
  generalize u3.beginPage.raiseWrite .page u3.beginPage.pageDue = u5 at h4 d5
  exact h4.raise .snapshot u5.snapshotDue fun k => by
    simp [snapshotDue, d5, hd] at k
    exact ⟨k.1.1.1.1, k.1.2, fun h => by cases h⟩

/-! ## R49 and R21 -/

theorem RingLaw.settle {s : State} (h : RingLaw s) : RingLaw s.settle := by
  refine settle_of (P := RingLaw) (fun t h => ?_) (fun t h => ?_) (fun t h => h) h
  · obtain ⟨a, d, w, e, -, -⟩ := t.raised_raiseAll
    have j := raiseAll_joins t
    rw [e] at j ⊢
    clear e
    have key : ∀ l, Joins t l → l.Nodup ∧ (Writer.record ∈ l → Writer.record ∈ t.arb.writebacks ∨ t.recordDue = true) := by
      intro l hl
      induction hl with
      | none => exact ⟨h.1, .inl⟩
      | more l w _ hn ht hr ih =>
        refine ⟨List.nodup_append.2 ⟨ih.1, by simp, ?_⟩, fun hm => ?_⟩
        · intro a ha b hb; simp at hb; subst hb; rintro rfl; exact hn ha
        · rcases List.mem_append.1 hm with hm | hm
          · exact ih.2 hm
          · exact .inr (hr (by simpa using (List.mem_singleton.1 hm).symm))
    obtain ⟨k1, k2⟩ := key _ j
    have hc : t.recordDue = true → t.carries Purpose.isRecord = false := by
      intro k; unfold State.recordDue at k; split at k
      · cases k
      · simp at k; exact k.1.2
    refine ⟨k1, fun k => ?_, fun d' hd' => ⟨(h.2.2 d' hd').1, fun k => ?_⟩⟩
    · rcases k2 (by simpa [State.writeWaits] using k.1) with hm | hm
      · exact h.2.1 ⟨by simpa [State.writeWaits] using hm, k.2⟩
      · have := hc hm; have k' := k.2; simp_all [State.carries]
    · rcases k with k | k
      · rcases k2 (by simpa [State.writeWaits] using k) with hm | hm
        · exact (h.2.2 d' hd').2 (.inl (by simpa [State.writeWaits] using hm))
        · have hd'' : t.dir.taken = some d' := hd'
          unfold State.recordDue at hm; rw [hd''] at hm
          simp at hm
          exact hm.2
      · exact (h.2.2 d' hd').2 (.inr k)
  · rcases granted_grant t with ⟨-, e⟩ | ⟨hp, g⟩
    · rw [e]; exact h
    · generalize t.grant = u at g
      cases g with
      | idle c hw => exact h
      | read a p r hf hw hb h1 h2 =>
        refine ⟨hw ▸ h.1, fun k => ?_, fun d hd => ⟨(h.2.2 d hd).1, fun k => ?_⟩⟩
        · have := k.2; simp [State.carries, h2] at this
        · rcases k with k | k
          · refine (h.2.2 d hd).2 (.inl ?_)
            unfold State.writeWaits at *; rw [← hw]; exact k
          · simp [State.carriesLive, h2] at k
      | write a w rest d hd hl hf hw hb =>
        have hn := h.1
        rw [hl] at hn
        have hn' := List.nodup_cons.1 hn
        have hrec : (t.writeOf d w).1.isRecord = true → w = .record := by
          intro hr
          cases w <;> simp only [writeOf] at hr
          case record => rfl
          all_goals (repeat' split at hr) <;> simp [Purpose.isRecord] at hr
        refine ⟨hw ▸ hn'.2, fun k => ?_, fun d' hd' => ⟨(h.2.2 d' hd').1, fun k => ?_⟩⟩
        · have k2 := k.2
          simp only [State.carries] at k2
          have k1 := k.1
          simp only [State.writeWaits, hw, List.contains_iff_mem] at k1
          rw [hrec k2] at hn'
          exact hn'.1 k1
        · refine (h.2.2 d' hd').2 (.inl ?_)
          rcases k with k | k
          · simp only [State.writeWaits, hw, List.contains_iff_mem] at k ⊢
            rw [hl]; exact List.mem_cons_of_mem _ k
          · simp only [State.carriesLive, Bool.true_and] at k
            simp [State.writeWaits, hl, hrec k]
      | forwarded x hf hu =>
        exact grantForwarded_of t x
          (by
            refine ⟨h.1, fun k => ?_, fun d hd => ⟨(h.2.2 d hd).1, fun k => ?_⟩⟩
            · have := k.2; simp [State.carries, Purpose.isRecord] at this
            · rcases k with k | k
              · exact (h.2.2 d hd).2 (.inl k)
              · simp [State.carriesLive, Purpose.isRecord] at k)
          (fun _ => h.free rfl hp rfl rfl rfl)
          fun u c d k => (Change.logged true c d).ring k

theorem PortInside.raise {s : State} (h : PortInside s) : PortInside s.raiseAll := by
  have j := raiseAll_joins s
  obtain ⟨a, d, w, e, hf, -⟩ := s.raised_raiseAll
  rw [e] at j ⊢
  clear e
  refine ⟨fun k => h.1 (hf ▸ k), fun k => ⟨hf.trans (h.2.1 k).1, (h.2.1 k).2⟩, fun k => ?_⟩
  have key : ∀ l, Joins s l → l ≠ [] → s.dir.taken.isSome = true := by
    intro l hl
    cases hl with
    | none => exact h.2.2
    | more l w h hn ht hr => exact fun _ => ht
  exact key _ j k

theorem writeOf_notForwarded (s : State) (d : Directory) (w : Writer) : (s.writeOf d w).1.isForwarded = false := by
  cases w <;> simp only [writeOf]
  all_goals (repeat' split) <;> rfl

theorem PortInside.granted {s t : State} (h : PortInside s) (hp : s.port = none) (g : Granted s t) : PortInside t := by
  cases g with
  | idle c hw => exact h
  | read a p r hf hw hb h1 h2 =>
    refine ⟨fun k => h.1 (hf ▸ k), fun k => by simp [State.carries, h1] at k, fun k => h.2.2 (hw ▸ k)⟩
  | write a w rest d hd hl hf hw hb =>
    refine ⟨fun k => h.1 (hf ▸ k), fun k => ?_, fun k => h.2.2 (by simp [hl])⟩
    simp [State.carries, writeOf_notForwarded] at k
  | forwarded x hf hu =>
    refine grantForwarded_of (P := PortInside) s x ?_ (fun r => ?_) fun u c d k => (Change.logged true c d).port k
    · exact ⟨fun k => (by cases k), fun _ => ⟨rfl, (by rw [hu]; rfl)⟩, h.2.2⟩
    · refine ⟨fun k => (by cases k), fun k => ?_, h.2.2⟩
      simp [State.carries, respond, hp] at k

theorem forwarded_grantForwarded (s : State) (t : Transaction) : (s.grantForwarded t).arb.forwarded = false :=
  (disposed_grantForwarded s t).2.2.2

/-- The end of an event restores the Memory Port's law (R21). -/
theorem PortInside.settle {s : State} (h : PortInside s) : PortLaw s.settle := by
  have round : ∀ t : State, PortInside t → PortInside t.raiseAll.grant := by
    intro t ht
    rcases granted_grant t.raiseAll with ⟨-, e⟩ | ⟨hp, g⟩
    · rw [e]; exact ht.raise
    · exact ht.raise.granted hp g
  -- after one round the port is busy or no forwarded transaction waits
  have first : ∀ t : State, PortInside t →
      t.raiseAll.grant.port.isSome = true ∨ t.raiseAll.grant.arb.forwarded = false := by
    intro t ht
    rcases granted_grant t.raiseAll with ⟨hp, e⟩ | ⟨-, g⟩
    · exact .inl (by rw [e]; exact hp)
    · have hr := ht.raise
      generalize t.raiseAll = u at g hr
      generalize u.grant = v at g
      cases g with
      | idle c hw =>
        right
        by_contra hf
        exact hw hr.1 hr.2.2 (.inl (by simpa using hf))
      | read a p r hf hw hb h1 h2 => exact .inl rfl
      | write a w rest d hd hl hf hw hb => exact .inl rfl
      | forwarded x hf hu => exact .inr (forwarded_grantForwarded u x)
  have second : ∀ t : State, PortInside t → t.port.isSome = true ∨ t.arb.forwarded = false →
      t.raiseAll.grant.requestWaits → t.raiseAll.grant.port.isSome = true := by
    intro t ht hb hw
    obtain ⟨a, d, w, e, hf, -⟩ := t.raised_raiseAll
    have hr := ht.raise
    have e1 : t.raiseAll.port = t.port := by rw [e]
    have e2 : t.raiseAll.arb.forwarded = t.arb.forwarded := by rw [e]; exact hf
    rcases granted_grant t.raiseAll with ⟨hp, e⟩ | ⟨hp, g⟩
    · rw [e]; exact hp
    · rw [← e1, ← e2] at hb
      clear e e1 e2 hf
      generalize t.raiseAll = u at g hr hp hb hw
      generalize u.grant = v at g hw
      cases g with
      | idle c hn => exact absurd hw (hn hr.1 hr.2.2)
      | read a p r hf hw hb h1 h2 => rfl
      | write a w rest d hd hl hf hw hb => rfl
      | forwarded x hf hu => rcases hb with hb | hb <;> simp_all
  have k1 := round s h
  have k2 := first s h
  have close : ∀ t : State, (t.requestWaits → t.port.isSome = true) → PortInside t → PortLaw t.attend :=
    fun t a b => ⟨a, b⟩
  exact close _ (second _ k1 k2) (round _ k1)

/-- The Memory Port's law holds inside an event at its beginning. -/
theorem PortLaw.inside {s : State} (h : PortLaw s) : PortInside s := h.2

/-! ## From changes to steps -/

/-- A law kept over a step: `Pre` is what of it holds inside an event, between its changes, and the end of the event
restores the whole. -/
theorem step_keeps (Inv Pre : State → Prop) (pre : ∀ s, Inv s → Pre s)
    (change : ∀ {s t : State}, Change s t → Pre s → Pre t) (settle : ∀ {s : State}, Pre s → Inv s.settle)
    (lines : ∀ (s : State) l, Inv s → Inv { s with lines := l })
    (pending : ∀ (s : State) p, Inv s → Inv { s with pending := p })
    (reset : ∀ s : State, Inv { State.reset with pending := s.pending, lines := s.lines, freeDraws := s.freeDraws })
    (tick : ∀ s : State, Inv s → Inv s.tick) {s t : State} (h : Inv s) (e : step s = .next t) : Inv t := by
  have chain : ∀ s u, Changes s u → Pre s → Pre u := by
    intro s u h
    induction h with
    | refl => exact id
    | tail _ c ih => exact fun k => change c (ih k)
  have command : ∀ c s, Inv s → exec c s = .next t → Inv t := by
    intro c s h e
    by_cases hc : c = .hardwareReset
    · subst hc
      have e' : Host.Outcome.next (φ := Fault) (ρ := Refusal)
        { State.reset with pending := s.pending, lines := s.lines, freeDraws := s.freeDraws } = .next t := e
      rw [← Host.Outcome.next.inj e']; exact reset s
    · have key : ∀ a, Reaches s a → a = .next t → Inv t := by
        intro a r ha
        cases r with
        | nothing => rw [← Host.Outcome.next.inj ha]; exact h
        | line l _ => rw [← Host.Outcome.next.inj ha]; exact lines _ _ h
        | event u hu => rw [← Host.Outcome.next.inj ha]; exact settle (chain _ _ hu (pre _ h))
      exact key _ (reaches_exec c s hc) e
  have form : step s = match s.pending with
    | c :: rest => exec c { s with pending := rest }
    | [] => match s.dueCommand with
      | some c => exec c s
      | none => .next s.tick := rfl
  rw [form] at e
  cases hp : s.pending with
  | cons c rest => simp only [hp] at e; exact command _ _ (pending _ _ h) e
  | nil =>
    simp only [hp] at e
    cases hd : s.dueCommand with
    | some c => simp only [hd] at e; exact command _ _ h e
    | none =>
      simp only [hd] at e
      rw [← Host.Outcome.next.inj e]; exact tick _ h

end Sys2Proof.Machine
end

