-- ==== Sys2Proof/Laws/Answers.lean ====
section
/-! SUPPORT. How a command's answer is read, said once: an effect with no tasks leaves its state at the event's end, and the
take of a cue that stands at the head is its unit's effect on the consumed queue. With them, lemmas of the tables and formats
the statements speak of: numbered members, slices, the serial form of a frame. -/

namespace Sys2Proof

/-- Writing what a table holds already changes nothing. -/
@[simp] theorem put_get_self {α : Type} {n : Nat} (v : Vector α n) (i : Fin n) : put v i (v.get i) = v := by
  simp [put, Vector.get_eq_getElem]

namespace Machine

/-! ## Answers -/

/-- An effect with no tasks is left at the event's end. -/
theorem leaves_of_conclude {c : Instr} {s u : State} (h : exec c s = .next (conclude (u, []))) : Leaves c s u :=
  ⟨_, h, State.closes_settle u⟩

/-- The take of a cue that stands at the head (R44). -/
theorem takeCue_of_headIs {s : State} {kind : CueKind} {c : TakenCue} {rest : List CueEntry} (h : s.headIs kind c rest)
    (effect : State → TakenCue → Effect) :
    takeCue s (some kind) effect = .next (conclude (effect (s.consumed rest) c)) := by
  obtain ⟨low, start, code, head, is⟩ := h
  simp [takeCue, head, react, low, start, is]

/-! ## Numbers and slices -/

theorem numbered_eq_some {n x : Nat} {z : Fin n} : numbered n x = some z ↔ x = z.val := by
  simp only [numbered]
  split
  · simp [Fin.ext_iff]
  · simp; omega

theorem byteAt_lt (l : List Byte) (i : Nat) : byteAt l i < 256 := (l.getD i 0).isLt

theorem length_flatMap_of {α β : Type} (l : List α) (f : α → List β) {m : Nat} (h : ∀ a, (f a).length = m) :
    (l.flatMap f).length = m * l.length := by
  induction l with
  | nil => simp
  | cons a l ih => simp [ih, h, Nat.mul_add, Nat.add_comm]

theorem slice_append_left (a b : List Byte) {i n : Nat} (h : i + n ≤ a.length) : slice (a ++ b) i n = slice a i n := by
  unfold slice
  rw [List.drop_append_of_le_length (by omega), List.take_append_of_le_length (by simp; omega)]

theorem slice_append_right (a b : List Byte) {i n : Nat} (h : a.length ≤ i) :
    slice (a ++ b) i n = slice b (i - a.length) n := by
  unfold slice
  rw [List.drop_append, List.drop_eq_nil_of_le h, List.nil_append]

/-- The slice of a list of records of one length at a record's place is the record. -/
theorem slice_flatMap {α : Type} (l : List α) (f : α → List Byte) {m : Nat} (h : ∀ a, (f a).length = m) (i : Nat)
    (hi : i < l.length) : slice (l.flatMap f) (m * i) m = f l[i] := by
  induction l generalizing i with
  | nil => simp at hi
  | cons a l ih =>
    cases i with
    | zero => simp [slice, ← h a]
    | succ i =>
      have hi' : i < l.length := by simpa using hi
      have e : m * (i + 1) - (f a).length = m * i := by rw [h a, Nat.mul_succ]; omega
      rw [List.flatMap_cons, slice_append_right _ _ (by rw [h a]; exact Nat.le_mul_of_pos_right _ (by omega)), e, ih i hi']
      simp

theorem Slot.length_entryBytes (x : Slot) (scene : Byte) : (x.entryBytes scene).length = 16 := by
  unfold Slot.entryBytes
  cases x.loop <;> simp [bytes16, bytes32, zeros]

/-! ## Lamp links -/

@[simp] theorem length_serialByte (b : Byte) : (serialByte b).length = 11 := by simp [serialByte]

/-- A frame's bits are those of its bytes, eleven to a byte (R190). -/
theorem serialFrame_getElem? (frame : List Byte) (i : Nat) :
    (serialFrame frame)[i]? = (frame[i / 11]?).bind fun b => (serialByte b)[i % 11]? := by
  induction frame generalizing i with
  | nil => simp [serialFrame]
  | cons a l ih =>
    simp only [serialFrame, List.flatMap_cons] at *
    by_cases h : i < 11
    · rw [List.getElem?_append_left (by rw [length_serialByte]; exact h)]
      simp [Nat.div_eq_of_lt h, Nat.mod_eq_of_lt h]
    · rw [List.getElem?_append_right (by rw [length_serialByte]; omega), length_serialByte, ih]
      obtain ⟨j, rfl⟩ : ∃ j, i = j + 11 := ⟨i - 11, by omega⟩
      simp

/-! ## What tasks do -/

/-- Removals touch neither the mark of a further scan nor the re-requests owed. -/
theorem dropWhere_flags (s : State) (p : Request → Bool) (reason : DropReason) :
    (s.dropWhere p reason).req.scanPending = s.req.scanPending ∧ (s.dropWhere p reason).req.owed = s.req.owed := by
  have all : ∀ (l : List Request) (t : State), (l.foldl (fun t r => t.drop r reason) t).req.scanPending =
      t.req.scanPending ∧ (l.foldl (fun t r => t.drop r reason) t).req.owed = t.req.owed := by
    intro l
    induction l with
    | nil => exact fun t => ⟨rfl, rfl⟩
    | cons a l ih => exact fun t => ih (t.drop a reason)
  exact all _ s

/-- Taking a scene's requests out of the queue takes out the one there is. -/
theorem filter_other_scenes (s : State) (r : Request) {before after : List Request} (hq : s.req.queue = before ++ r :: after)
    (others : ∀ p ∈ before ++ after, p.scene ≠ r.scene) :
    (s.req.queue.filter fun q => q.scene != r.scene) = before ++ after := by
  rw [hq]
  simp only [List.filter_append, List.filter_cons]
  rw [List.filter_eq_self.2 fun a ha => by simpa using others a (by simp [ha]),
    List.filter_eq_self.2 fun a ha => by simpa using others a (by simp [ha])]
  simp

end Machine

end Sys2Proof
end

