-- ==== Sys2Proof/Laws/PerInstr.lean ====
section
/-! SUPPORT. Said of each command alone: the table gives its row no bits, so no word spells it (log 24). -/

namespace Sys2Proof.Laws.Bits

/-- No word of the table spells the command. -/
def Statement (i : Instr) : Prop := ∀ nbits w : Nat, decodeTableWord nbits w ≠ some i

/-- No word spells any command. -/
theorem unspelled (i : Instr) : Statement i := fun _ _ h => nomatch h

theorem hardwareReset : Statement .hardwareReset := unspelled _

theorem resetRelease : Statement .resetRelease := unspelled _

theorem forwardedReadArrives (addr : Address) (length : Nat) (cls : TxClass) :
    Statement (.forwardedReadArrives addr length cls) := unspelled _

theorem forwardedWriteArrives (addr : Address) (length : Nat) (cls : TxClass) (data : List Byte) :
    Statement (.forwardedWriteArrives addr length cls data) := unspelled _

theorem withdrawnWrite (addr : Address) (length : Nat) (cls : TxClass) (data : List Byte) :
    Statement (.withdrawnWrite addr length cls data) := unspelled _

theorem forwardedData (data : List Byte) : Statement (.forwardedData data) := unspelled _

theorem forwardedWriteDone : Statement .forwardedWriteDone := unspelled _

theorem memoryErrorForwarded : Statement .memoryErrorForwarded := unspelled _

theorem directoryLineArrives (data : List Byte) : Statement (.directoryLineArrives data) := unspelled _

theorem directoryReadFailed : Statement .directoryReadFailed := unspelled _

theorem cueLineArrives (data : List Byte) : Statement (.cueLineArrives data) := unspelled _

theorem cueFetchFailed : Statement .cueFetchFailed := unspelled _

theorem consumerWriteDone : Statement .consumerWriteDone := unspelled _

theorem consumerWriteFailed : Statement .consumerWriteFailed := unspelled _

theorem requestScene : Statement .requestScene := unspelled _

theorem stopScene : Statement .stopScene := unspelled _

theorem stopAll : Statement .stopAll := unspelled _

theorem closeZone : Statement .closeZone := unspelled _

theorem openZone : Statement .openZone := unspelled _

theorem setLanguage : Statement .setLanguage := unspelled _

theorem setBaseLevel : Statement .setBaseLevel := unspelled _

theorem houseLights : Statement .houseLights := unspelled _

theorem homeAxis : Statement .homeAxis := unspelled _

theorem holdShow : Statement .holdShow := unspelled _

theorem releaseShow : Statement .releaseShow := unspelled _

theorem clearFault : Statement .clearFault := unspelled _

theorem enterSafe : Statement .enterSafe := unspelled _

theorem leaveSafe : Statement .leaveSafe := unspelled _

theorem restoreShow : Statement .restoreShow := unspelled _

theorem mark : Statement .mark := unspelled _

theorem unknownKind : Statement .unknownKind := unspelled _

theorem failedEntryTake : Statement .failedEntryTake := unspelled _

theorem reportRecordDone : Statement .reportRecordDone := unspelled _

theorem reportWriteFailed : Statement .reportWriteFailed := unspelled _

theorem producerWriteDone : Statement .producerWriteDone := unspelled _

theorem producerWriteFailed : Statement .producerWriteFailed := unspelled _

theorem guardInputActive (line : Fin 8) : Statement (.guardInputActive line) := unspelled _

theorem guardInputInactive (line : Fin 8) : Statement (.guardInputInactive line) := unspelled _

theorem settleDeadline (zone : Fin 8) : Statement (.settleDeadline zone) := unspelled _

theorem visitorLineChange (input : Fin 24) (level : Level) : Statement (.visitorLineChange input level) := unspelled _

theorem debounceDeadline (input : Fin 24) : Statement (.debounceDeadline input) := unspelled _

theorem cooldownDeadline (scene : Fin 32) : Statement (.cooldownDeadline scene) := unspelled _

theorem requestExpires (scene : Fin 32) : Statement (.requestExpires scene) := unspelled _

theorem scriptLineArrives (data : List Byte) : Statement (.scriptLineArrives data) := unspelled _

theorem scriptReadFailed : Statement .scriptReadFailed := unspelled _

theorem lampStep (slot : Fin 8) : Statement (.lampStep slot) := unspelled _

theorem narrateStep (slot : Fin 8) : Statement (.narrateStep slot) := unspelled _

theorem moveStep (slot : Fin 8) : Statement (.moveStep slot) := unspelled _

theorem waitStep (slot : Fin 8) : Statement (.waitStep slot) := unspelled _

theorem markStep (slot : Fin 8) : Statement (.markStep slot) := unspelled _

theorem loopStep (slot : Fin 8) : Statement (.loopStep slot) := unspelled _

theorem endStep (slot : Fin 8) : Statement (.endStep slot) := unspelled _

theorem scriptRunsOut (slot : Fin 8) : Statement (.scriptRunsOut slot) := unspelled _

theorem waitTimeout (slot : Fin 8) : Statement (.waitTimeout slot) := unspelled _

theorem lampFrame : Statement .lampFrame := unspelled _

theorem clipGroupArrives (data : List Byte) : Statement (.clipGroupArrives data) := unspelled _

theorem clipLineArrives (data : List Byte) : Statement (.clipLineArrives data) := unspelled _

theorem clipReadFailed : Statement .clipReadFailed := unspelled _

theorem sampleInstant : Statement .sampleInstant := unspelled _

theorem cutDeadline (voice : Fin 8) : Statement (.cutDeadline voice) := unspelled _

theorem homeSwitchActive (axis : Fin 12) : Statement (.homeSwitchActive axis) := unspelled _

theorem homeNotFound (axis : Fin 12) : Statement (.homeNotFound axis) := unspelled _

theorem arrival (axis : Fin 12) : Statement (.arrival axis) := unspelled _

theorem moveTimeout (axis : Fin 12) : Statement (.moveTimeout axis) := unspelled _

theorem suspendingAtRest (axis : Fin 12) : Statement (.suspendingAtRest axis) := unspelled _

theorem haltEnds (axis : Fin 12) : Statement (.haltEnds axis) := unspelled _

theorem suspendLimit (axis : Fin 12) : Statement (.suspendLimit axis) := unspelled _

theorem stall (axis : Fin 12) : Statement (.stall axis) := unspelled _

theorem powerWarning : Statement .powerWarning := unspelled _

theorem faultPageLineDone : Statement .faultPageLineDone := unspelled _

theorem faultPageWriteFailed : Statement .faultPageWriteFailed := unspelled _

theorem snapshotLineDone : Statement .snapshotLineDone := unspelled _

theorem snapshotFailed : Statement .snapshotFailed := unspelled _

theorem restoreLineArrives (data : List Byte) : Statement (.restoreLineArrives data) := unspelled _

theorem restoreReadFailed : Statement .restoreReadFailed := unspelled _

theorem maximumSpeedReached (axis : Fin 12) : Statement (.maximumSpeedReached axis) := unspelled _

theorem beginToSlow (axis : Fin 12) : Statement (.beginToSlow axis) := unspelled _

theorem directionReversal (axis : Fin 12) : Statement (.directionReversal axis) := unspelled _

theorem stepPulse (axis : Fin 12) : Statement (.stepPulse axis) := unspelled _

theorem unknownStepKind (slot : Fin 8) : Statement (.unknownStepKind slot) := unspelled _

theorem powerWarningInactive : Statement .powerWarningInactive := unspelled _

theorem stallInputInactive (axis : Fin 12) : Statement (.stallInputInactive axis) := unspelled _

theorem homeSwitchInactive (axis : Fin 12) : Statement (.homeSwitchInactive axis) := unspelled _

end Sys2Proof.Laws.Bits
end

