-- ==== Sys2Proof/Certificates/Slice0/Obligations.lean ====
section
/-! DEFINITION. The statements: what a step, each command and the shared operations do, and the laws every step keeps.
A statement about a command gives the state its own effect leaves, and then the end of the event (`Closes`) or the tasks
that follow (`follow`), both of Safety.lean. -/

section Statements

open Sys2Proof Sys2Proof.Machine

/-! ## The queue, reset and time -/

/-- A step takes the command at the front of the queue and runs it on the rest. -/
def Obligations.StepRunsFrontCommand : Prop :=
  ∀ (c : Instr) (rest : List Instr) (s : State),
    step { s with pending := c :: rest } = exec c { s with pending := rest }

/-- On an empty queue a step runs an event of the part's own that is due, else a ms of show time passes (log 2). R86, R97,
R104, R147, R149: what a ms changes: the clock or the wait's timeout of each RUNNING slot, the remaining waits of WAITING
requests in RUN, the elapsed time of each axis under way, the count of this ms's samples; while RESET is low the show time
alone (log 3). -/
def Obligations.StepOnEmptyQueue : Prop :=
  ∀ s : State, s.pending = [] →
    (∀ c, s.dueCommand = some c → step s = exec c s ∧ s.isDue c = true ∧ s.resetLow = false) ∧
    (s.dueCommand = none → s.resetLow = true → step s = .next { s with showTime := s.showTime + 1 }) ∧
    (s.dueCommand = none → s.resetLow = false →
    ∃ t, step s = .next t ∧ t.showTime = s.showTime + 1 ∧ t.sampleCount = 0 ∧
      (∀ k, t.slot k = match (s.slot k).state, (s.slot k).wait with
        | .running, none => { s.slot k with clock := min 3600000 ((s.slot k).clock + 1) }
        | .running, some w => { s.slot k with wait := some { w with remaining := w.remaining.map (· - 1) } }
        | _, _ => s.slot k) ∧
      (s.ctl.state ≠ .run → t.req = s.req) ∧
      (s.ctl.state = .run → t.req = { s.req with queue := s.req.queue.map fun r =>
        if r.state = .waiting then { r with remaining := r.remaining - 1 } else r }) ∧
      (∀ n, t.axis n = match (s.axis n).state with
        | .moving => { s.axis n with elapsed := (s.axis n).elapsed + 1, profileMs := (s.axis n).profileMs + 1 }
        | .homing => { s.axis n with elapsed := (s.axis n).elapsed + 1 }
        | .suspending | .halting => { s.axis n with profileMs := (s.axis n).profileMs + 1 }
        | _ => s.axis n) ∧
      { t with showTime := s.showTime, sampleCount := s.sampleCount, slots := s.slots, req := s.req, axes := s.axes } = s)

/-- No command ever stops the part: each answers a next state in every state. That a command whose event has not come about
answers a next state too is log 1's choice. -/
def Obligations.CommandsNeverStop : Prop := ∀ (c : Instr) (s : State), ∃ t, exec c s = .next t

/-- The values hardware reset leaves in every unit (R23, R24, R39, R49, R57, R74, R92, R116, R120, R131, R148, R165, R172,
R179). The response none, the direction of an axis and the empty frames are log 7's choice. -/
def Obligations.ResetValues : Prop :=
  let r := State.reset
  r.pending = [] ∧ r.showTime = 0 ∧ r.up = ⟨none, none⟩ ∧ r.port = none ∧ r.arb.forwarded = false ∧
    (∀ v, r.arb.voice.get v = none ∧ r.arb.script.get v = none) ∧ r.arb.lookups = [] ∧ r.arb.writebacks = [] ∧
    r.arb.voicePtr = 7 ∧ r.arb.slotPtr = 7 ∧ r.arb.classPtr = .writeback ∧ r.arb.forwardedWait = 0 ∧
    r.disp.cueProducer = 0 ∧ r.disp.reportConsumer = 0 ∧ r.disp.reloadWord = 0 ∧ r.memorySize = 0x10000000 ∧
    r.dir.taken = none ∧ r.dir.image = [] ∧ r.dir.load = .idle ∧ r.dir.locked = false ∧ r.dir.sequence = 0 ∧
    (∀ w, (r.disp.windows.get w).kind = 0) ∧
    r.cue = ⟨0, 0, 0, [], false⟩ ∧ r.report = ⟨[], 0, 0, 0, false, false⟩ ∧
    (∀ z, r.zone z = ⟨false, none, none, .clear, none, 0, []⟩) ∧
    (∀ i, r.input i = { raw := .inactive, debounced := .inactive, deadline := none }) ∧ r.req.queue = [] ∧
    r.req.scanPending = false ∧ (∀ n, r.req.cooldown.get n = none) ∧
    (∀ k, r.slot k =
      { state := .free, holding := none, clock := 0, next := 0, fetch := 0, buffer := [], lines := 0, wait := none,
        loop := none, endReason := none, savedClock := none }) ∧
    (∀ c, r.channel c = ⟨0, none, none, false, 0, 0, none⟩) ∧ r.lamp.houseLights = false ∧
    r.lamp.nextFrame = none ∧ (∀ k, r.lamp.frames.get k = []) ∧
    (∀ v, r.voice v =
      { state := .idle, owner := none, group := none, clip := none, fetchPos := 0, playPos := 0, buffer := [],
        starvedReported := false, resumeTo := none, cutDeadline := none, pendingGroup := none, output := 0,
        muted := false }) ∧
    (∀ n, r.axis n =
      { state := .unhomed, position := 0, direction := .lower, homed := false, driverEnabled := false, owner := .nobody,
        target := none, pendingMove := none, elapsed := 0, guardReason := false, holdReason := false, resumeTo := none,
        suspendedSince := none, suspendedTotal := 0, lastResult := none, origin := 0, run := none, profileMs := 0,
        timedOut := false } ∧ ((r.axis n).speed (r.axisRecord n)).sign = 0) ∧
    (∀ i, r.pins.get i = none) ∧
    (∀ b, r.bank b = { valid := false, severity := none, code := none, detail := [], time := 0, overflow := false,
                       showStateLost := false }) ∧ r.fault.dirty = false ∧ r.fault.writer = none ∧
    r.ctl = ⟨.start, false, none, none⟩

/-- HARDWARE_RESET brings every unit to its reset values; the waiting commands and the levels of the lines, which are
outside, stand (R23; logs 3, 4 and 15). While RESET is low every command but those and RESET_RELEASE leaves the part as it
is, but that a line's change changes the level of the line it names (log 3). RESET_RELEASE: the part leaves reset in START and its first load begins, whose first line is read at once when the Memory Port is free and nothing else waits
(R24, R25). -/
def Obligations.ResetAndRelease : Prop :=
  ∀ s : State,
    exec .hardwareReset s =
        .next { State.reset with pending := s.pending, lines := s.lines, freeDraws := s.freeDraws } ∧
      (s.resetLow = true → ∀ c, c ≠ .hardwareReset → c ≠ .resetRelease →
        exec c s = .next (s.lineMoved c)) ∧
      (s.resetLow = true →
        Leaves .resetRelease s { s with resetLow := false, dir := { s.dir with image := [], load := .loading 0 } }) ∧
      ∀ p l, s = { State.reset with pending := p, lines := l } →
        ∃ t, exec .resetRelease s = .next t ∧ t.ctl.state = .start ∧ t.port = some ⟨.directory, .read, 0, 64, [], true⟩

/-! ## The laws every step keeps -/

/-- R55: the attention output follows its condition. -/
def Obligations.StepKeepsAttentionLaw : Prop :=
  ∀ s t : State, AttentionLaw s → step s = .next t → AttentionLaw t

/-- R126: the house-lights flag is set throughout SAFE. -/
def Obligations.StepKeepsHouseLightsLaw : Prop :=
  ∀ s t : State, HouseLightsLaw s → step s = .next t → HouseLightsLaw t

/-- R74: at most 16 requests, one for a scene, none for a closed zone. -/
def Obligations.StepKeepsRequestLaw : Prop :=
  ∀ s t : State, RequestLaw s → step s = .next t → RequestLaw t

/-- R180: the MOTION bank alone holds a SEVERE record. -/
def Obligations.StepKeepsSevereLaw : Prop :=
  ∀ s t : State, SevereLaw s → step s = .next t → SevereLaw t

/-- R165: one pin for each slot that is not FREE and each voice not in IDLE or LOOKUP, and no other pins. -/
def Obligations.StepKeepsPinLaw : Prop :=
  ∀ s t : State, PinLaw s → step s = .next t → PinLaw t

/-- R22, R39, R49: the queues keep their sizes and the counts their ranges. -/
def Obligations.StepKeepsBoundsLaw : Prop :=
  ∀ s t : State, BoundsLaw s → step s = .next t → BoundsLaw t

/-- R21: the Memory Port is busy whenever a request waits. -/
def Obligations.StepKeepsPortLaw : Prop :=
  ∀ s t : State, PortLaw s → step s = .next t → PortLaw t

/-- R49: no more unconsumed records than the Report Ring has slots. -/
def Obligations.StepKeepsRingLaw : Prop :=
  ∀ s t : State, RingLaw s → step s = .next t → RingLaw t

/-- R59: a zone's owner slot is not FREE. -/
def Obligations.StepKeepsOwnerLaw : Prop :=
  ∀ s t : State, OwnerLaw s → step s = .next t → OwnerLaw t

/-- R27 to R31: the taken directory is that of a load image that passed every check: the header's, the geometry's and the
records'. -/
def Obligations.StepKeepsDirectoryLaw : Prop :=
  ∀ s t : State, DirectoryLaw s → step s = .next t → DirectoryLaw t

/-- Each of these laws holds right after reset (R21, R22, R27, R39, R49, R55, R59, R74, R126, R165, R180). -/
def Obligations.LawsHoldAtReset : Prop :=
  AttentionLaw .reset ∧ HouseLightsLaw .reset ∧ RequestLaw .reset ∧ SevereLaw .reset ∧ PinLaw .reset ∧
    BoundsLaw .reset ∧ PortLaw .reset ∧ RingLaw .reset ∧ OwnerLaw .reset ∧ DirectoryLaw .reset

/-! ## Processor transactions (file 01) -/

/-- R2: a withdrawn write changes nothing; one withdrawn after its last beat has arrived already. -/
def Obligations.WithdrawnWriteChangesNothing : Prop :=
  ∀ (addr : Address) (length : Nat) (cls : TxClass) (data : List Byte) (s : State),
    exec (.withdrawnWrite addr length cls data) s = .next s

/-- R1, R22: a transaction presented while the port holds none becomes the forwarded transaction, every field as
presented, and waits at the Arbiter with a count of 0; behind a busy Memory Port it is held so. That the response last
returned is cleared then is the model's choice (log 7). One presented while the port holds another is held off: it changes
nothing (log 6). -/
def Obligations.TransactionArrives : Prop :=
  ∀ (s : State) (addr : Address) (length : Nat) (cls : TxClass) (data : List Byte), s.resetLow = false →
    ∀ c x, (c = .forwardedReadArrives addr length cls ∧ x = ⟨.read, addr, length, cls, []⟩ ∨
        c = .forwardedWriteArrives addr length cls data ∧ x = ⟨.write, addr, length, cls, data⟩) →
      (s.up.held = none →
        ∃ t, exec c s = .next t ∧
          Closes { s with up := ⟨some x, none⟩, arb := { s.arb with forwarded := true, forwardedWait := 0 } } t ∧
          (s.port.isSome = true → t.up = ⟨some x, none⟩ ∧ t.arb.forwarded = true ∧ t.arb.forwardedWait = 0)) ∧
        (s.up.held.isSome = true → exec c s = .next s)

/-- R14: a filled read is answered DATA at its grant, as many bytes as it asked for and every byte zero, as a read of
zeros would be; memory is not accessed, no fault is logged and no record produced. On arrival at a free port, no urgent
refill being due, the grant comes in the same event. -/
def Obligations.FilledReadIsAnsweredWithZeros : Prop :=
  ∀ (s : State) (addr : Address) (length : Nat) (cls : TxClass),
    let x : Transaction := ⟨.read, addr, length, cls, []⟩
    s.disposal x = .fill →
      ((s.grantForwarded x).up = ⟨none, some (.data (List.replicate length 0))⟩ ∧
        (s.grantForwarded x).up = (s.freePort.respond (.data (zeros length))).up ∧
        (s.grantForwarded x).port = s.port ∧ (s.grantForwarded x).fault = s.fault ∧
        (s.grantForwarded x).report = s.report) ∧
      (s.resetLow = false → s.up.held = none → s.port = none → (s.forward x).raiseAll.urgentVoice = none →
        ∃ t, exec (.forwardedReadArrives addr length cls) s = .next t ∧
          t.up = ⟨none, some (.data (List.replicate length 0))⟩ ∧ t.carries Purpose.isForwarded = false ∧
          t.report.queue = s.report.queue ∧ t.report.lost = s.report.lost ∧ t.fault.banks = s.fault.banks)

/-- R8, R12, R13, R21: a transaction that arrives at a free port, no urgent refill being due, is granted in its event.
Passed, it goes out on the Memory Port with its address, length, kind and data; malformed or refused, it is answered
REFUSED, memory is not accessed, and the LINK bank is handed the fault with its details. A write that the lock refused and
that covers a byte of the reload word is a reload request made while locked: RELOAD IGNORED is logged with the copy of the
word; that it is logged after WRITE REFUSED is log 44's. Any other refusal leaves the SHOW bank alone. That the response last
returned is cleared at the arrival is the model's choice (log 7). -/
def Obligations.TransactionIsGrantedOnArrival : Prop :=
  ∀ (s : State) (addr : Address) (length : Nat) (cls : TxClass) (data : List Byte), s.resetLow = false →
    s.up.held = none → s.port = none →
    ∀ c x, (c = .forwardedReadArrives addr length cls ∧ x = ⟨.read, addr, length, cls, []⟩ ∨
        c = .forwardedWriteArrives addr length cls data ∧ x = ⟨.write, addr, length, cls, data⟩) →
      (s.forward x).raiseAll.urgentVoice = none →
      (s.disposal x = .pass → ∃ t, exec c s = .next t ∧ t.up = ⟨some x, none⟩ ∧
        t.port = some ⟨.forwarded, x.kind, addr.toNat, length, x.data, true⟩) ∧
      (s.disposal x = .malformed → ∃ t, exec c s = .next t ∧ t.up = ⟨none, some .refused⟩ ∧
        t.carries Purpose.isForwarded = false ∧
        t.bank .link = (s.decideFault .malformed [addr.toNat, classCode cls, x.kind.code]).record) ∧
      ∀ source which, s.disposal x = .refuse source which →
        ∃ t, exec c s = .next t ∧ t.up = ⟨none, some .refused⟩ ∧ t.carries Purpose.isForwarded = false ∧
          t.bank .link = (s.decideFault .writeRefused [addr.toNat, classCode cls, source, which]).record ∧
          let asks := source = 0 ∧ s.dir.locked = true ∧ State.covers addr.toNat length 0xFFC = true
          let refused := s.log .writeRefused [addr.toNat, classCode cls, source, which]
          (asks → t.bank .showBank = (s.decideFault .reloadIgnored [s.disp.reloadWord.toNat]).record ∧
            t.report.queue = (refused.log .reloadIgnored [s.disp.reloadWord.toNat]).report.queue) ∧
          (¬ asks → t.bank .showBank = s.bank .showBank ∧ t.report.queue = refused.report.queue)

/-- R6 to R12: the six steps of the disposition, the first that decides settling it. -/
def Obligations.DispositionSteps : Prop :=
  ∀ (s : State) (x : Transaction),
    let a := x.addr.toNat
    let malformed := x.length = 0 ∨ 64 < x.length ∨ 64 < a % 64 + x.length ∨ s.memorySize ≤ a
    let pinned := fun i : Fin 16 => ∃ p, s.pins.get i = some p ∧ p.touches x = true
    let firstPin := fun i : Fin 16 => pinned i ∧ ∀ j < i, ¬ pinned j
    let covers := fun w : Fin 12 => (s.disp.windows.get w).kind ≠ 0 ∧ (s.disp.windows.get w).base ≤ a ∧
      a < (s.disp.windows.get w).limit
    (malformed → s.disposal x = .malformed) ∧
    (¬ malformed → a < 0x1000 →
      (x.kind = .read → s.disposal x = .pass) ∧
      (x.kind = .write → (s.dir.locked = true ∨ x.cls = .showClass) → s.disposal x = .refuse 0 0) ∧
      (x.kind = .write → s.dir.locked = false → x.cls = .serviceClass →
        (∀ i, firstPin i → s.disposal x = .refuse 2 i.val) ∧ ((∀ i, ¬ pinned i) → s.disposal x = .pass))) ∧
    (¬ malformed → 0x1000 ≤ a →
      (x.kind = .write → ∀ n, s.areaTouched x = some n → s.disposal x = .refuse 1 n) ∧
      (x.kind = .write → s.areaTouched x = none → ∀ i, firstPin i → s.disposal x = .refuse 2 i.val) ∧
      ((x.kind = .write → s.areaTouched x = none ∧ ∀ i, ¬ pinned i) →
        ((∀ w, ¬ covers w) → s.disposal x = .pass) ∧
        ∀ w, covers w → (∀ v < w, ¬ covers v) →
          (x.cls = .serviceClass → s.disposal x = .pass) ∧
          (x.cls = .showClass → (s.disp.windows.get w).kind = 1 → s.disposal x = .pass) ∧
          (x.cls = .showClass → (s.disp.windows.get w).kind = 2 →
            s.disposal x = if x.kind = .read then .fill else .refuse 3 w.val) ∧
          (x.cls = .showClass → (s.disp.windows.get w).kind = 3 →
            s.disposal x = if x.kind = .read then .pass else .refuse 3 w.val)))

/-- R6: the Disposition Unit's law. A write that passes has no byte in a pinned range nor in a part-written area, nor,
while the lock is set, in the directory region. -/
def Obligations.DispositionUnitLaw : Prop :=
  ∀ (s : State) (x : Transaction), DirectoryLaw s → x.kind = .write → s.disposal x = .pass →
    ∀ a, x.addr.toNat ≤ a → a < x.addr.toNat + x.length →
      (∀ i p, s.pins.get i = some p → ¬ (p.first.base ≤ a ∧ a < p.first.limit) ∧
        ∀ e, p.second = some e → ¬ (e.base ≤ a ∧ a < e.limit)) ∧
      (∀ d, s.dir.taken = some d →
        ¬ (d.reportBase + 64 ≤ a ∧ a < d.reportBase + 64 + 32 * d.reportSlots) ∧
        ¬ (d.reportBase ≤ a ∧ a < d.reportBase + 4) ∧ ¬ (d.cueBase + 4 ≤ a ∧ a < d.cueBase + 8) ∧
        ¬ (d.faultPage ≤ a ∧ a < d.faultPage + 256) ∧ ¬ (d.snapshotArea ≤ a ∧ a < d.snapshotArea + 1024)) ∧
      (s.dir.locked = true → 0x1000 ≤ a)

/-- R3, R15, R17: memory's answers to the forwarded transaction. DATA goes back as it came; DONE of a write that covers no
observed word goes back alone; MEMORY ERROR goes back, logged with the address, class and kind, and observes nothing. -/
def Obligations.MemoryAnswersTheForwarded : Prop :=
  ∀ (s : State) (f : InFlight), s.resetLow = false → s.port = some f → f.purpose = .forwarded →
    let back := fun r => { s with port := none, up := ⟨none, some r⟩ }
    (∀ data, f.kind = .read → data.length = f.length →
      ∃ t, exec (.forwardedData data) s = .next t ∧ Closes (back (.data data)) t) ∧
    (f.kind = .write → (∀ d, s.dir.taken = some d → State.covers f.addr f.data.length d.cueBase = false ∧
        State.covers f.addr f.data.length (d.reportBase + 4) = false) →
      State.covers f.addr f.data.length 0xFFC = false →
      ∃ t, exec .forwardedWriteDone s = .next t ∧ Closes (back .done) t) ∧
    (∀ x, s.up.held = some x →
      ∃ t, exec .memoryErrorForwarded s = .next t ∧
        Closes ((back .memoryError).log .memoryErrorForwarded [f.addr, classCode x.cls, f.kind.code]) t)

/-- R17, R40, R53: a completed write over a ring word takes its bytes into the copy, and its unit judges the whole copy.
A producer value more than the ring's slots ahead of the consumer count is an overrun; a consumer value past the producer
count, or behind the consumer copy, is invalid; each is logged and changes nothing, any other is accepted. -/
def Obligations.RingWordsAreObserved : Prop :=
  ∀ (s : State) (f : InFlight) (d : Directory), s.resetLow = false → s.port = some f → f.purpose = .forwarded →
    f.kind = .write → s.dir.taken = some d → State.covers f.addr f.data.length 0xFFC = false →
    let back := { s with port := none, up := ⟨none, some .done⟩ }
    (State.covers f.addr f.data.length d.cueBase = true →
      State.covers f.addr f.data.length (d.reportBase + 4) = false →
      let copy := State.observed s.disp.cueProducer d.cueBase f.addr f.data
      let p : Index := copy.setWidth 16
      let u := { back with disp := { s.disp with cueProducer := copy } }
      ∃ t, exec .forwardedWriteDone s = .next t ∧
        (d.cueSlots < (p - s.cue.consumer).toNat → Closes (u.log .cueProducerOverrun [p.toNat, s.cue.consumer.toNat]) t) ∧
        ((p - s.cue.consumer).toNat ≤ d.cueSlots → Closes { u with cue := { s.cue with accepted := p } } t)) ∧
    (State.covers f.addr f.data.length d.cueBase = false →
      State.covers f.addr f.data.length (d.reportBase + 4) = true →
      let copy := State.observed s.disp.reportConsumer (d.reportBase + 4) f.addr f.data
      let v : Index := copy.setWidth 16
      let u := { back with disp := { s.disp with reportConsumer := copy } }
      ∃ t, exec .forwardedWriteDone s = .next t ∧
        ((v - s.report.consumer).toNat ≤ (s.report.producer - s.report.consumer).toNat →
          Closes { u with report := { s.report with consumer := v } } t) ∧
        ((s.report.producer - s.report.consumer).toNat < (v - s.report.consumer).toNat →
          Closes (u.log .reportConsumerInvalid [v.toNat, s.report.consumer.toNat, s.report.producer.toNat]) t))

/-- R36, R114, R173, R174: a completed write over the reload word alone is a reload request, decided by show state and
lock: START with a load begun, DRAINING with the stops of the LOADING, RUNNING and HELD slots and the drops (their order is
log 18's), or ignored, with the copy in the detail. DRAINING entry ends a restore read under way (R186): its waiting request
is withdrawn and RESTORE DONE is produced as ABANDONED, behind SHOW STATE (that place is log 19's). The quiet test of DRAINING enters START, a load begun, when every slot
is FREE, every voice IDLE and no axis in motion, and does nothing else. -/
def Obligations.ReloadRequestIsDecided : Prop :=
  ∀ (s : State) (f : InFlight), s.resetLow = false → s.port = some f → f.purpose = .forwarded → f.kind = .write →
    State.covers f.addr f.data.length 0xFFC = true →
    (∀ d, s.dir.taken = some d → State.covers f.addr f.data.length d.cueBase = false ∧
      State.covers f.addr f.data.length (d.reportBase + 4) = false) →
    let copy := State.observed s.disp.reloadWord 0xFFC f.addr f.data
    let u := { s with port := none, up := ⟨none, some .done⟩, disp := { s.disp with reloadWord := copy } }
    (s.dir.locked = true ∨ s.ctl.state = .start ∨ s.ctl.state = .hold ∨ s.ctl.state = .draining →
      ∃ t, exec .forwardedWriteDone s = .next t ∧ Closes (u.log .reloadIgnored [copy.toNat]) t) ∧
    (s.dir.locked = false → s.ctl.state = .unconfigured ∨ s.ctl.state = .safe →
      let v := u.produce (.showState s.ctl.state .start)
      ∃ t, exec .forwardedWriteDone s = .next t ∧
        Closes { v with ctl := { s.ctl with state := .start }
                        dir := { s.dir with image := [], load := .loading 0 } } t) ∧
    (s.dir.locked = false → s.ctl.state = .run →
      let v := u.produce (.showState .run .draining)
      let w := if s.ctl.restore.isSome then
          { v.produce (.restoreDone .abandoned 0) with
            arb := { s.arb with lookups := s.arb.lookups.filter fun l => l.who != .restore } }
        else v
      exec .forwardedWriteDone s = .next
        (follow 0 ({ w with ctl := { s.ctl with state := .draining, restore := none } },
          (((fins 8).filter fun k => (s.slot k).state.isRunning).map fun k => .stopSlot k .reload) ++
            [.dropAll .reload, .quietTest]))) ∧
    ( let quiet := (∀ k, (s.slot k).state = .free) ∧ (∀ v, (s.voice v).state = .idle) ∧
        ∀ n, (s.axis n).state = .unhomed ∨ (s.axis n).state = .idle ∨ (s.axis n).state = .faulted
      (s.ctl.state ≠ .draining ∨ ¬ quiet → perform .quietTest s = (s, [])) ∧
      (s.ctl.state = .draining → quiet →
        let v := s.produce (.showState .draining .start)
        perform .quietTest s = ({ v with ctl := { s.ctl with state := .start }
                                         dir := { s.dir with image := [], load := .loading 0 } }, [])))

/-- R20 to R22, R25, R41, R47, R51, R52, R94, R130, R136, R183, R185, R186: the requests that are raised, each under its
requester's conditions, joining their orders as 1.6 lists the requesters, voices in rising number, and nothing else but the
beginning of a Fault Page pass; and the Port Arbiter's rules, the first that finds a request choosing when the Memory Port is
free: the urgent voice first after the voice pointer, the cyclic order of the classes, the voice or slot first after its
pointer, the head of the LOOKUP or WRITEBACK order. A producer count that the consumer count has passed counts as behind the
fetched count (R40, log 43). -/
def Obligations.ArbiterRules : Prop :=
  ∀ s : State,
    let waits := fun who : Looker => ∃ l ∈ s.arb.lookups, l.who = who
    let flies := fun p : Purpose → Bool => ∃ f, s.port = some f ∧ p f.purpose = true
    let fliesLive := fun p : Purpose → Bool => ∃ f, s.port = some f ∧ f.live = true ∧ p f.purpose = true
    -- what is raised
    ( let u := s.raiseAll
      let asks := fun (who : Looker) (want : Option Nat) => (want.map fun a => (⟨who, a⟩ : Lookup)).toList
      u.arb.lookups = s.arb.lookups ++ asks .directory s.directoryWant ++ asks .cueLine s.cueWant ++
        ((fins 8).flatMap fun v => asks (.clipGroup v) (s.groupWant v)) ++ asks .restore s.restoreWant ∧
      (∀ v, u.arb.voice.get v = (s.arb.voice.get v).or (s.clipWant v)) ∧
      (∀ k, u.arb.script.get k = (s.arb.script.get k).or (s.scriptWant k)) ∧
      { u with arb := s.arb, fault := s.fault } = s ∧
      { u.arb with voice := s.arb.voice, script := s.arb.script, lookups := s.arb.lookups, writebacks := s.arb.writebacks } =
        s.arb) ∧
    (∀ a, s.directoryWant = some a ↔
      ∃ n, s.dir.load = .loading n ∧ a = 64 * n ∧ ¬ waits .directory ∧ ¬ flies Purpose.isDirectory) ∧
    (∀ a, s.cueWant = some a ↔ ∃ d, s.dir.taken = some d ∧ ¬ waits .cueLine ∧ ¬ flies Purpose.isCueLine ∧
      (s.cue.accepted - s.cue.consumer).toNat ≤ d.cueSlots ∧
      (s.cue.fetched - s.cue.consumer).toNat < (s.cue.accepted - s.cue.consumer).toNat ∧ s.cue.queue.length < 8 ∧
      a = d.cueBase + 64 + 64 * (s.cue.fetched.toNat % d.cueSlots / 2)) ∧
    (∀ v a, s.groupWant v = some a ↔ ∃ d g, s.dir.taken = some d ∧ (s.voice v).group = some g ∧
      (s.voice v).state = .lookup ∧ ¬ waits (.clipGroup v) ∧ ¬ fliesLive (Purpose.isClipGroup v) ∧
      a = d.clipTable + 64 * g) ∧
    (∀ a, s.restoreWant = some a ↔ ∃ d r, s.dir.taken = some d ∧ s.ctl.restore = some r ∧ ¬ waits .restore ∧
      ¬ flies Purpose.isRestore ∧ a = d.snapshotArea + 64 * r.line.getD 15) ∧
    (∀ v r, s.clipWant v = some r ↔ ∃ c, (s.voice v).clip = some c ∧
      ((s.voice v).state = .fetching ∨ (s.voice v).state = .playing ∨ (s.voice v).state = .starved ∨
        (s.voice v).state = .paused) ∧
      s.arb.voice.get v = none ∧ ¬ fliesLive (Purpose.isClipLine v) ∧ (s.voice v).fetchPos < c.length ∧
      (s.voice v).buffer.length + 64 ≤ 4096 ∧
      let a := c.bank + (c.address - c.bank + (s.voice v).fetchPos) % 1048576
      r = ⟨a, min (64 - a % 64) (c.length - (s.voice v).fetchPos)⟩) ∧
    (∀ k r, s.scriptWant k = some r ↔
      ((s.slot k).state = .loading ∨ (s.slot k).state = .running ∨ (s.slot k).state = .held) ∧
      s.arb.script.get k = none ∧ ¬ fliesLive (Purpose.isScript k) ∧ (s.slot k).fetch < (s.slotScene k).steps ∧
      (s.slot k).buffer.length + 4 ≤ 8 ∧
      let a := (s.slotScene k).script + 16 * (s.slot k).fetch
      r = ⟨a - a % 64, 64⟩) ∧
    (∀ d, s.dir.taken = some d →
      let begins := s.fault.dirty = true ∧ s.fault.writer = none ∧ ¬ flies Purpose.isPage
      let due := fun (w : Writer) (p : Purpose → Bool) (more : Prop) => w ∉ s.arb.writebacks ∧ ¬ flies p ∧ more
      let joins : Writer → Prop
        | .record => due .record Purpose.isRecord
            (s.report.queue ≠ [] ∧ (s.report.producer - s.report.consumer).toNat < d.reportSlots)
        | .producer => due .producer Purpose.isProducer (s.report.writePending = true)
        | .consumer => due .consumer Purpose.isConsumer (s.cue.writePending = true)
        | .page => due .page Purpose.isPage (s.fault.writer.isSome = true ∨ begins)
        | .snapshot => due .snapshot Purpose.isSnapshot (s.ctl.snapshot.isSome = true ∧ s.ctl.restore = none)
      (∃ l : List Writer, s.raiseAll.arb.writebacks = s.arb.writebacks ++ l ∧
        l.Sublist [.record, .producer, .consumer, .page, .snapshot] ∧ ∀ w, w ∈ l ↔ joins w) ∧
      (begins → s.raiseAll.fault = { s.fault with dirty := false, writer := some 0 }) ∧
      (¬ begins → s.raiseAll.fault = s.fault)) ∧
    (s.dir.taken = none → s.raiseAll.arb.writebacks = s.arb.writebacks ∧ s.raiseAll.fault = s.fault) ∧
    -- the picks
    ( let urgent := fun (v : Fin 8) (r : ReadRequest) => s.arb.voice.get v = some r ∧
        (s.voice v).buffer.length < 1024 ∧ (s.voice v).fetchPos < (s.voice v).playedLength
      let behind := fun (p v : Fin 8) => (v - (p + 1)).val
      (s.urgentVoice = none ↔ ∀ v r, ¬ urgent v r) ∧
      (∀ v r, s.urgentVoice = some (v, r) ↔
        urgent v r ∧ ∀ w q, urgent w q → behind s.arb.voicePtr v ≤ behind s.arb.voicePtr w) ∧
      ((∀ v, s.arb.voice.get v = none) → s.grantClass .voice = none) ∧
      (∀ v r, s.arb.voice.get v = some r →
        (∀ w, (s.arb.voice.get w).isSome = true → behind s.arb.voicePtr v ≤ behind s.arb.voicePtr w) →
        ∃ t, s.grantClass .voice = some t ∧ t.port = some ⟨.clipLine v, .read, r.addr, r.length, [], true⟩ ∧
          t.arb.voicePtr = v ∧ t.arb.voice = put s.arb.voice v none) ∧
      ((∀ k, s.arb.script.get k = none) → s.grantClass .script = none) ∧
      (∀ k r, s.arb.script.get k = some r →
        (∀ j, (s.arb.script.get j).isSome = true → behind s.arb.slotPtr k ≤ behind s.arb.slotPtr j) →
        ∃ t, s.grantClass .script = some t ∧ t.port = some ⟨.script k, .read, r.addr, r.length, [], true⟩ ∧
          t.arb.slotPtr = k ∧ t.arb.script = put s.arb.script k none) ∧
      (s.arb.lookups = [] → s.grantClass .lookup = none) ∧
      (∀ l rest, s.arb.lookups = l :: rest →
        ∃ t, s.grantClass .lookup = some t ∧ t.port = some ⟨l.who.purpose, .read, l.addr, 64, [], true⟩ ∧
          t.arb.lookups = rest) ∧
      (s.arb.writebacks = [] → s.grantClass .writeback = none) ∧
      (∀ w rest d, s.arb.writebacks = w :: rest → s.dir.taken = some d →
        let x := s.writeOf d w
        ∃ t, s.grantClass .writeback = some t ∧ t.port = some ⟨x.1, .write, x.2.1, x.2.2.length, x.2.2, true⟩ ∧
          t.arb.writebacks = rest) ∧
      State.classesAfter .voice = [.script, .lookup, .writeback, .voice] ∧
      State.classesAfter .script = [.lookup, .writeback, .voice, .script] ∧
      State.classesAfter .lookup = [.writeback, .voice, .script, .lookup] ∧
      State.classesAfter .writeback = [.voice, .script, .lookup, .writeback]) ∧
    -- the rules
    (s.port.isSome = true → s.grant = s) ∧
    (s.port = none → ∀ x, s.arb.forwarded = true → s.up.held = some x →
      (s.arb.forwardedWait = 4 → s.grant = s.grantForwarded x) ∧
      (s.arb.forwardedWait ≠ 4 → s.urgentVoice = none → s.grant = s.grantForwarded x)) ∧
    (s.port = none → (s.arb.forwarded = true → s.arb.forwardedWait ≠ 4) → ∀ v r, s.urgentVoice = some (v, r) →
      s.grant.port = some ⟨.clipLine v, .read, r.addr, r.length, [], true⟩ ∧ s.grant.arb.voicePtr = v ∧
        s.grant.arb.classPtr = s.arb.classPtr ∧ s.arb.voice.get v = some r ∧ s.grant.arb.voice.get v = none ∧
        (s.voice v).buffer.length < 1024 ∧ (s.voice v).fetchPos < (s.voice v).playedLength ∧
        (s.arb.forwarded = true → s.grant.arb.forwardedWait = min 4 (s.arb.forwardedWait + 1))) ∧
    (s.port = none → s.arb.forwarded = false → s.urgentVoice = none →
      s.grant = s.grantRobin ∧ s.grant.arb.forwardedWait = s.arb.forwardedWait ∧
        ∀ c t before rest, State.classesAfter s.arb.classPtr = before ++ c :: rest →
          (∀ b ∈ before, s.grantClass b = none) → s.grantClass c = some t →
          s.grant = { t with arb := { t.arb with classPtr := c } })

/-! ## The Show Directory (file 02) -/

/-- R25 to R27, R34: a line before the last joins the load image and the next is due; a last line whose image fails a
check, or a line memory could not give, ends the load: the image is discarded, the first failing item or the line's
address is logged, nothing else of the directory changes, and Show Control leaves START: to UNCONFIGURED when no directory
is taken. -/
def Obligations.DirectoryLoadGoesOnOrFails : Prop :=
  ∀ (s : State) (f : InFlight) (n : Nat), s.resetLow = false → s.port = some f → f.purpose = .directory →
    s.dir.load = .loading n →
    let failed := fun code detail =>
      ({ s with port := none, dir := { s.dir with image := [], load := .idle } } : State).log code detail
    let unconfigured := fun u : State =>
      let v := ({ u with ctl := { s.ctl with safePending := false } } : State).produce (.showState .start .unconfigured)
      { v with ctl := { s.ctl with safePending := false, state := .unconfigured } }
    (∀ data, data.length = f.length →
      (n < 63 → ∃ t, exec (.directoryLineArrives data) s = .next t ∧
        Closes { s with port := none, dir := { s.dir with image := s.dir.image ++ data, load := .loading (n + 1) } } t) ∧
      (63 ≤ n → ∀ c, firstFailure (s.dir.image ++ data) = some c → s.ctl.state = .start →
        exec (.directoryLineArrives data) s =
            .next (follow 0 (failed .directoryInvalid [c.word], [.leaveStart false])) ∧
          (s.dir.taken = none → ∃ t, exec (.directoryLineArrives data) s = .next t ∧
            Closes (unconfigured (failed .directoryInvalid [c.word])) t))) ∧
    (s.ctl.state = .start →
      exec .directoryReadFailed s = .next (follow 0 (failed .directoryReadFailed [f.addr], [.leaveStart false])) ∧
        (s.dir.taken = none → ∃ t, exec .directoryReadFailed s = .next t ∧
          Closes (unconfigured (failed .directoryReadFailed [f.addr])) t))

/-- R31, R33, R48, R54, R11: a last line whose image passes every check is taken in its event: directory, sequence number,
lock, windows; a ring whose base or slot count differs, or the first, restarts, its counts 0, its queued cues or records
counted as lost, the cues first, and its waiting requests withdrawn (none is in flight, the port having carried the directory
line); RELOAD DONE is the first record after that (the place of the take's records is log 20's). R58, R117, R120, R164, R173,
R177, R183, R185: the zones and inputs are set from the records and the lines, the channels and axes from theirs by how they
changed, the Fault Page is dirty and its pass abandoned, the snapshot dropped; then stalls are found, in rising axis number by
the model's choice (log 49), and the show leaves START for RUN, or for SAFE when SAFE is pending, every cooldown cleared. A
HALTING axis is first brought to the present instant (log 11) and keeps its state, a timeout's halt its outcome too (log 47);
a disabled axis keeps its direction (log 32). -/
def Obligations.DirectoryIsTaken : Prop :=
  ∀ (s : State) (f : InFlight) (n : Nat) (data : List Byte), s.resetLow = false → s.port = some f →
    f.purpose = .directory → s.dir.load = .loading n → 63 ≤ n → data.length = f.length →
    firstFailure (s.dir.image ++ data) = none →
    let d := directoryOf (s.dir.image ++ data)
    let cueRing := match s.dir.taken with
      | none => true
      | some old => old.cueBase != d.cueBase || old.cueSlots != d.cueSlots
    let reportRing := match s.dir.taken with
      | none => true
      | some old => old.reportBase != d.reportBase || old.reportSlots != d.reportSlots
    let locked := s.dir.locked || d.lockOnTake == 1
    ∃ t, exec (.directoryLineArrives data) s = .next t ∧ t.dir.taken = some d ∧ t.dir.sequence = d.sequence ∧
      t.dir.locked = locked ∧ t.disp.windows = d.windows ∧
      (cueRing = true → t.cue = ⟨0, 0, 0, [], true⟩ ∧ t.disp.cueProducer = 0) ∧
      (cueRing = false → t.cue = s.cue ∧ t.disp.cueProducer = s.disp.cueProducer) ∧
      (reportRing = true → t.report.producer = 0 ∧ t.report.consumer = 0 ∧ t.disp.reportConsumer = 0 ∧
        t.report.writePending = true ∧
        [⟨.reloadDone d.sequence locked cueRing reportRing, s.showTime⟩] <+: t.report.queue) ∧
      (reportRing = false → t.report.producer = s.report.producer ∧ t.report.consumer = s.report.consumer ∧
        ProducedFirst s t (.reloadDone d.sequence locked cueRing reportRing)) ∧
      ( let u := s.freePort.takeBlocks d
        Asks (.directoryLineArrives data) s (u.produce (.reloadDone d.sequence locked cueRing reportRing))
          ((fins 12).map .stallAtTake ++ [.leaveStart true]) ∧
        (∀ z, let r := d.zones.get z
          u.zone z = ⟨false, none, none,
            if ∃ g : Fin 8, r.guardInput = g.val ∧ r.isEnabled = true ∧ s.lines.guard.get g = .active then .tripped else .clear,
            none, if r.isEnabled then r.defaultLanguage else 0, []⟩) ∧
        (∀ i, u.input i = ⟨s.lines.visitor.get i, s.lines.visitor.get i, none⟩) ∧
        u.lamp.houseLights = s.lamp.houseLights ∧
        (s.dir.taken = none → u.lamp.nextFrame = some (s.showTime + 25) ∧
          ∀ c, let r := d.channels.get c
            u.channel c = ⟨r.base, none, none, false, r.base, r.work, numbered 8 r.zone⟩) ∧
        (s.dir.taken.isSome = true → u.lamp.nextFrame = s.lamp.nextFrame ∧
          ∀ c, let r := d.channels.get c
            let level := (s.channel c).level
            u.channel c = ⟨level, some ⟨level, r.base, 1000, 0, some s.showTime⟩, none, false, r.base, r.work,
              numbered 8 r.zone⟩) ∧
        (∀ n,
          let old := s.axisRecord n
          let new := d.axes.get n
          let a := s.axis n
          let b := u.axis n
          let guarded := ∃ z : Fin 8, new.zone = z.val ∧ (u.zone z).guard = .tripped
          let keeps := homeDirection old = homeDirection new
          b.holdReason = false ∧ (b.guardReason = true ↔ new.isEnabled = true ∧ guarded) ∧
          (new.isEnabled = false ∨ old.isEnabled = false → b.state = .unhomed ∧ b.homed = false ∧ b.position = 0 ∧
            b.driverEnabled = false ∧ b.owner = .nobody ∧ b.run = none ∧ b.target = none ∧ b.pendingMove = none) ∧
          (new.isEnabled = true → old.isEnabled = true →
            b.homed = (a.homed && decide keeps) ∧ b.lastResult = a.lastResult ∧ b.owner = a.owner ∧
            (a.state ≠ .halting → b.position = a.position) ∧
            (a.state = .idle ∨ a.state = .unhomed → b.state = if a.homed = true ∧ keeps then .idle else .unhomed) ∧
            (a.state ≠ .idle → a.state ≠ .unhomed → b.state = a.state) ∧
            (a.state = .halting →
              let r := s.syncedAxis n
              b.position = r.position ∧ b.timedOut = a.timedOut ∧
              b.run = some (.slowFrom new .stopping r.direction (.whole a.profileMs) (r.place old) (r.speed old))))) ∧
        u.fault = { s.fault with writer := none, dirty := true } ∧ u.ctl = { s.ctl with snapshot := none } ∧
        ( let lost := if cueRing then min 255 (s.report.lost + s.cue.queue.length) else s.report.lost
          u.report = if reportRing then
              { s.report with queue := [], producer := 0, consumer := 0, writePending := true,
                              lost := min 255 (lost + s.report.queue.length) }
            else { s.report with lost := lost }) ∧
        u.arb = { s.arb with
          lookups := s.arb.lookups.filter fun l => !(cueRing && l.who == .cueLine)
          writebacks := s.arb.writebacks.filter fun w =>
            match w with
            | .consumer => !cueRing
            | .record | .producer => !reportRing
            | .page | .snapshot => false } ∧
        u.port = none) ∧
      ∀ v : State, v.ctl.state = .start → v.dir.taken.isSome = true →
        let cleared := { v.req with cooldown := filled 32 none }
        (v.ctl.safePending = false →
          let w := v.produce (.showState .start .run)
          perform (.leaveStart true) v =
            ({ w with ctl := { v.ctl with state := .run }, req := cleared }, [.dropAll .reload, .askScan, .reRequest]) ∧
          perform (.leaveStart false) v = ({ w with ctl := { v.ctl with state := .run } }, [.askScan, .reRequest])) ∧
        (v.ctl.safePending = true →
          let e := perform .safeTrigger { v with ctl := { v.ctl with state := .run, safePending := false } }
          let w := perform (.leaveStart true) v
          w.1.ctl.state = .safe ∧ w.1.ctl.safePending = false ∧ w.1.lamp.houseLights = true ∧ w.1.req = cleared ∧
            (v.ctl.restore = none → w.1.report = (v.produce (.showState .start .safe)).report) ∧
            w.2 = .dropAll .reload :: e.2 ∧ (perform (.leaveStart false) v).2 = e.2)

/-! ## Cue Ring and Report Ring (file 03) -/

/-- R42, R43: the cues of a line that arrives, or a failed entry for each cue of a line memory could not give, join the
Cue Queue in order, from slot F mod N on, while the slot lies in the line, F is behind P and the queue has room; with P
behind F, as it is too where C has passed it (R40, log 43), none. R48: a line discarded at a take enters nothing, and the
error of one is logged alone. -/
def Obligations.CueLineEntersCues : Prop :=
  ∀ (s : State) (f : InFlight) (d : Directory), s.resetLow = false → s.port = some f → f.purpose = .cueLine →
    s.dir.taken = some d →
    let produced := (s.cue.accepted - s.cue.consumer).toNat
    let ahead := if produced ≤ d.cueSlots then produced - (s.cue.fetched - s.cue.consumer).toNat else 0
    let count := min (2 - s.cue.fetched.toNat % d.cueSlots % 2) (min ahead (8 - s.cue.queue.length))
    let index := fun i : Nat => s.cue.fetched + BitVec.ofNat 16 i
    let entered := fun (u : State) (entries : List CueEntry) =>
      { u with cue := { s.cue with queue := s.cue.queue ++ entries, fetched := s.cue.fetched + BitVec.ofNat 16 count } }
    (f.live = true →
      (∀ data, data.length = f.length →
        Leaves (.cueLineArrives data) s (entered s.freePort ((List.range count).map fun i =>
          let slot := slice data (32 * ((index i).toNat % d.cueSlots % 2)) 32
          .cue (index i) (slot.getD 0 0) (BitVec.ofNat 16 (word16At slot 2)) (slice slot 4 28)))) ∧
      Leaves .cueFetchFailed s (entered (s.freePort.log .cueFetchFailed [f.addr])
        ((List.range count).map fun i => .failed (index i)))) ∧
    (f.live = false →
      (∀ data, data.length = f.length → Leaves (.cueLineArrives data) s s.freePort) ∧
      Leaves .cueFetchFailed s (s.freePort.log .cueFetchFailed [f.addr]))

/-- R47, R52, R16: the write of the consumer word, or of the producer word, stops being pending at its DONE if the count
still equals the value written; MEMORY ERROR leaves it pending and is logged. R48, R54: the DONE of a write to the old ring
is disregarded, and its MEMORY ERROR logged alone. What each write carries, from the grant on (12.3): the count in the low two
bytes of a word, the producer's at the Report Ring's base, the consumer's 4 bytes above the Cue Ring's. -/
def Obligations.IndexWritesEnd : Prop :=
  (∀ (s : State) (d : Directory),
    let word := fun i : Index => [i.setWidth 8, (i >>> 8).setWidth 8, 0, 0]
    s.writeOf d .producer = (.producer s.report.producer, d.reportBase, word s.report.producer) ∧
    s.writeOf d .consumer = (.consumer s.cue.consumer, d.cueBase + 4, word s.cue.consumer)) ∧
  ∀ (s : State) (f : InFlight) (v : Index), s.resetLow = false → s.port = some f →
    let free := { s with port := none }
    (f.purpose = .consumer v →
      (f.live = true → Leaves .consumerWriteDone s
        { free with cue := { s.cue with writePending := s.cue.writePending && s.cue.consumer != v } }) ∧
      (f.live = false → Leaves .consumerWriteDone s free) ∧
      Leaves .consumerWriteFailed s (free.log .memoryErrorInternal [f.addr, 4])) ∧
    (f.purpose = .producer v →
      (f.live = true → Leaves .producerWriteDone s
        { free with report := { s.report with writePending := s.report.writePending && s.report.producer != v } }) ∧
      (f.live = false → Leaves .producerWriteDone s free) ∧
      Leaves .producerWriteFailed s (free.log .memoryErrorInternal [f.addr, 4]))

/-- R50, R51: a record joins the tail of the Report Queue with the show time, or is lost when 16 wait there; its write
carries the lost count of its grant; at DONE it leaves the queue, the producer count rises and the count carried is taken
off; at MEMORY ERROR it leaves the queue and is lost, and the fault is logged. R54: the DONE of a record removed at a restart
is disregarded, and its MEMORY ERROR logged alone. -/
def Obligations.RecordsAreWritten : Prop :=
  ∀ s : State,
    (∀ r, (s.produce r).report =
        if s.report.queue.length < 16 then { s.report with queue := s.report.queue ++ [⟨r, s.showTime⟩] }
        else { s.report with lost := min 255 (s.report.lost + 1) }) ∧
    (∀ d r rest, s.report.queue = r :: rest →
      s.writeOf d .record = (.record s.report.lost,
        d.reportBase + 64 + 32 * (s.report.producer.toNat % d.reportSlots), r.bytes s.report.lost)) ∧
    ∀ f n, s.resetLow = false → s.port = some f → f.purpose = .record n →
      let free := { s with port := none }
      (f.live = true →
        Leaves .reportRecordDone s { free with
          report := { s.report with queue := s.report.queue.tail, producer := s.report.producer + 1,
                                    lost := s.report.lost - n, writePending := true } } ∧
        Leaves .reportWriteFailed s (({ free with
          report := { s.report with queue := s.report.queue.tail
                                    lost := min 255 (s.report.lost + 1) } } : State).log .reportWriteFailed [f.addr])) ∧
      (f.live = false →
        Leaves .reportRecordDone s free ∧ Leaves .reportWriteFailed s (free.log .reportWriteFailed [f.addr]))

/-! ## Cues (files 03, 04, 05, 07, 09, 11) -/

/-- R44, R46: the take of a cue of any of the sixteen kinds. The entry leaves the queue, the consumer count rises by 1, the
consumer write becomes pending, and one CUE RESULT with the cue's index and tag is the first record of the take. -/
def Obligations.CueIsTaken : Prop :=
  ∀ (s : State) (c : Instr) (kind : CueKind), s.resetLow = false → s.ctl.state ≠ .start →
    (c, kind) ∈ [(.requestScene, .requestScene), (.stopScene, .stopScene), (.stopAll, .stopAll),
      (.closeZone, .closeZone), (.openZone, .openZone), (.setLanguage, .setLanguage), (.setBaseLevel, .setBaseLevel),
      (.houseLights, .houseLights), (.homeAxis, .homeAxis), (.holdShow, .holdShow), (.releaseShow, .releaseShow),
      (.clearFault, .clearFault), (.enterSafe, .enterSafe), (.leaveSafe, .leaveSafe), (.restoreShow, .restoreShow),
      (.mark, CueKind.mark)] →
    ∀ index code tag params rest, s.cue.queue = .cue index code tag params :: rest → CueKind.ofByte code = some kind →
      ∃ t result value, exec c s = .next t ∧ ProducedFirst s t (.cueResult index tag result value) ∧
        t.cue = { s.cue with queue := rest, consumer := s.cue.consumer + 1, writePending := true }

/-- R44, R45, R46: what the Cue Unit answers itself. A failed entry is FAILED with tag 0; an unknown kind is REFUSED UNKNOWN
KIND; a parameter outside its fixed range is REFUSED RANGE; MARK is ACCEPTED and echoes its value. Nothing else changes. -/
def Obligations.CueUnitAnswersItself : Prop :=
  ∀ (s : State) (rest : List CueEntry), s.resetLow = false → s.ctl.state ≠ .start →
    let u := { s with cue := { s.cue with queue := rest, consumer := s.cue.consumer + 1, writePending := true } }
    (∀ index, s.cue.queue = .failed index :: rest →
      ∃ t, exec .failedEntryTake s = .next t ∧ Closes (u.produce (.cueResult index 0 .failed 0)) t) ∧
    ∀ index code tag params, s.cue.queue = .cue index code tag params :: rest →
      (CueKind.ofByte code = none →
        ∃ t, exec .unknownKind s = .next t ∧ Closes (u.produce (.cueResult index tag (.refused .unknownKind) 0)) t) ∧
      (CueKind.ofByte code = some .mark →
        ∃ t, exec .mark s = .next t ∧
          Closes (u.produce (.cueResult index tag .accepted (BitVec.ofNat 32 (param32 params 4)))) t) ∧
      ∀ c kind, ((c = .requestScene ∧ kind = .requestScene ∨ c = .stopScene ∧ kind = .stopScene) ∧ 32 ≤ paramByte params 4 ∨
          (c = .closeZone ∧ kind = .closeZone ∨ c = .openZone ∧ kind = .openZone ∨ c = .setLanguage ∧ kind = .setLanguage) ∧
            8 ≤ paramByte params 4 ∨
          c = .setLanguage ∧ kind = .setLanguage ∧ 4 ≤ paramByte params 5 ∨
          c = .setBaseLevel ∧ kind = .setBaseLevel ∧
            (127 < paramByte params 4 ∨ paramByte params 5 = 0 ∨ 128 < paramByte params 4 + paramByte params 5 ∨
              1000 < param16 params 6 ∨ 60000 < param16 params 8) ∨
          c = .houseLights ∧ kind = .houseLights ∧ 2 ≤ paramByte params 4 ∨
          c = .homeAxis ∧ kind = .homeAxis ∧ 12 ≤ paramByte params 4 ∧ paramByte params 4 ≠ 0xFF ∨
          c = .clearFault ∧ kind = CueKind.clearFault ∧ 5 ≤ paramByte params 4) →
        CueKind.ofByte code = some kind →
        ∃ t, exec c s = .next t ∧ Closes (u.produce (.cueResult index tag (.refused .range) 0)) t

/-! ## What the units do with their cues (files 03, 04, 05, 07, 09, 11) -/

/-- R64, R65, R73: SET LANGUAGE, CLOSE ZONE and OPEN ZONE. Each is refused RANGE for a disabled zone; a language at or
above the language count is refused too. A closed zone's requests are dropped in queue order, their reservations cleared,
and then its owner slot is stopped; an opened zone asks for a scan. -/
def Obligations.ZoneCuesAct : Prop :=
  ∀ (s : State) (c : TakenCue) (rest : List CueEntry) (z : Fin 8), paramByte c.params 4 = z.val →
    let accepted := s.answered c rest .accepted
    let refused := s.answered c rest (.refused .range)
    (s.headIs .setLanguage c rest → ∀ l, paramByte c.params 5 = l → l < 4 →
      ((s.zoneRecord z).isEnabled = false ∨ s.languageCount ≤ l → Leaves .setLanguage s refused) ∧
      ((s.zoneRecord z).isEnabled = true → l < s.languageCount →
        Leaves .setLanguage s (accepted.setZone z { s.zone z with language := l }))) ∧
    (s.headIs .closeZone c rest →
      ((s.zoneRecord z).isEnabled = false → Leaves .closeZone s refused) ∧
      ((s.zoneRecord z).isEnabled = true →
        let inZone := fun r : Request => (s.sceneRecord r.scene).hasZone z.val
        let u := (accepted.setZone z { s.zone z with closed := true }).dropWhere inZone .zoneClosed
        u.req.queue = s.req.queue.filter (fun r => !inZone r) ∧
        (∀ y, (∃ r ∈ s.req.queue, inZone r = true ∧ (s.zone y).reservation = some r.scene) → (u.zone y).reservation = none) ∧
        ((s.zone z).owner = none → Leaves .closeZone s u) ∧
        ∀ k, (s.zone z).owner = some k → Asks .closeZone s u [.stopSlot k .zoneClosed])) ∧
    (s.headIs .openZone c rest →
      ((s.zoneRecord z).isEnabled = false → Leaves .openZone s refused) ∧
      ((s.zoneRecord z).isEnabled = true →
        let u := accepted.setZone z { s.zone z with closed := false }
        Asks .openZone s u [.askScan] ∧ (s.ctl.state ≠ .run → Leaves .openZone s u)))

/-- R125, R126: SET BASE LEVEL and HOUSE LIGHTS. Every channel of the range takes the new base; an unowned one fades to
it, an owned one stays, one that is being released goes on to it in the time its release fade had left. -/
def Obligations.LampCuesAct : Prop :=
  ∀ (s : State) (c : TakenCue) (rest : List CueEntry),
    let accepted := s.answered c rest .accepted
    (s.headIs .setBaseLevel c rest → ∀ b : BaseLevel,
      b = ⟨paramByte c.params 4, paramByte c.params 5, param16 c.params 6, param16 c.params 8⟩ →
      1 ≤ b.count → b.first + b.count ≤ 128 → b.level ≤ 1000 → b.fade ≤ 60000 →
      let u := accepted.setBaseLevels b
      Leaves .setBaseLevel s u ∧ { u with lamp := s.lamp } = accepted ∧
        { u.lamp with channels := s.lamp.channels } = s.lamp ∧
        ∀ n : Fin 128,
          let x := s.channel n
          let inRange := b.first ≤ n.val ∧ n.val < b.first + b.count
          (¬ inRange → u.channel n = x) ∧
          (inRange → x.owner = none →
            u.channel n = { x with base := b.level, fade := some ⟨x.level, b.level, b.fade, 0, some s.showTime⟩ }) ∧
          (inRange → x.owner.isSome = true → x.releasing = false → u.channel n = { x with base := b.level }) ∧
          ∀ f, inRange → x.owner.isSome = true → x.releasing = true → x.fade = some f →
            u.channel n = { x with
              base := b.level
              fade := some ⟨x.level, b.level, f.duration - (f.updated s.showTime).elapsed, 0, some s.showTime⟩ }) ∧
    (s.headIs .houseLights c rest →
      (paramByte c.params 4 = 1 → Leaves .houseLights s { accepted with lamp := { s.lamp with houseLights := true } }) ∧
      (paramByte c.params 4 = 0 →
        (s.ctl.state = .safe → Leaves .houseLights s (s.answered c rest (.refused .wrongState))) ∧
        (s.ctl.state ≠ .safe →
          Leaves .houseLights s { accepted with lamp := { s.lamp with houseLights := false } })))

/-- R154, R62: HOME AXIS. One axis is checked for RANGE, WRONG STATE and BUSY in that order; an accepted axis takes owner
CUE, joins its zone's cue-homing set and enters HOMING, or SUSPENDED with a reason. ALL takes the axes that would be
accepted alone, in rising order, and answers their number; that they are chosen at the take is the model's choice (log 14). -/
def Obligations.HomeAxisHomes : Prop :=
  ∀ (s : State) (c : TakenCue) (rest : List CueEntry), s.headIs .homeAxis c rest →
    let may := fun n : Fin 12 => (s.axisRecord n).isEnabled = true ∧
      ((s.axis n).state = .unhomed ∨ (s.axis n).state = .idle ∨ (s.axis n).state = .faulted ∧ s.lines.stall.get n = .inactive) ∧
      ∃ z : Fin 8, (s.axisRecord n).zone = z.val ∧ (s.zone z).owner = none ∧ (s.zone z).reservation = none
    (∀ n, s.mayHome n = true ↔ may n) ∧
    (∀ n : Fin 12, paramByte c.params 4 = n.val →
      ((s.axisRecord n).isEnabled = false → Leaves .homeAxis s (s.answered c rest (.refused .range))) ∧
      ((s.axisRecord n).isEnabled = true → s.ctl.state ≠ .run →
        Leaves .homeAxis s (s.answered c rest (.refused .wrongState))) ∧
      ((s.axisRecord n).isEnabled = true → s.ctl.state = .run → ¬ may n →
        Leaves .homeAxis s (s.answered c rest (.refused .busy))) ∧
      (s.ctl.state = .run → may n →
        let a := s.axis n
        let homing : Axis :=
          { a with state := .homing, owner := .cue, target := none, pendingMove := none, elapsed := 0, suspendedTotal := 0,
                   driverEnabled := true, resumeTo := none, suspendedSince := none, origin := a.position,
                   run := some (.restAt (.whole a.position)), profileMs := 0, timedOut := false,
                   direction := homeDirection (s.axisRecord n) }
        let suspended : Axis :=
          { homing with state := .suspended, resumeTo := some .homing, suspendedSince := some s.showTime,
                        direction := a.direction }
        let u := ((s.answered c rest .accepted).setAxis n (if a.hasReason then suspended else homing)).addHoming n
        exec .homeAxis s = .next (follow 1 (u, [.findHome n])) ∧
          (s.lines.home.get n = .inactive ∨ a.hasReason = true → Leaves .homeAxis s u) ∧
          ∀ z : Fin 8, (s.axisRecord n).zone = z.val → n ∈ (u.zone z).cueHoming)) ∧
    (paramByte c.params 4 = 0xFF →
      (s.ctl.state ≠ .run → Leaves .homeAxis s (s.answered c rest (.refused .wrongState))) ∧
      (s.ctl.state = .run →
        let chosen := (fins 12).filter s.mayHome
        let u := s.answered c rest .accepted (BitVec.ofNat 32 chosen.length)
        Asks .homeAxis s { u with req := { s.req with underWay := true } } (chosen.map .homeByCue ++ [.endHoming])))

/-- R175, R113, R124, R145: HOLD SHOW holds every RUNNING slot with its fades and pauses the voices, then adds HOLD to the
enabled axes and starts a snapshot; RELEASE SHOW releases slots, voices and axes in that order and asks for a scan; that every slot
is RUNNING before the first takes its steps is the model's choice (log 13), and that the axes take and lose HOLD in rising
number (log 35). Each is refused in any other state. -/
def Obligations.HoldAndRelease : Prop :=
  ∀ (s : State) (c : TakenCue) (rest : List CueEntry),
    let refused := s.answered c rest (.refused .wrongState)
    let accepted := s.answered c rest .accepted
    (s.headIs .holdShow c rest →
      (s.ctl.state ≠ .run → Leaves .holdShow s refused) ∧
      (s.ctl.state = .run →
        let u := (accepted.changeShow .hold).holdSlots.pauseVoices
        Asks .holdShow s u ((s.enabledAxes.map fun n => .addReason n .hold) ++ [.startSnapshot .hold]) ∧
          u.ctl = { s.ctl with state := .hold } ∧ u.report = (accepted.produce (.showState .run .hold)).report ∧
          u.axes = s.axes ∧ u.zones = s.zones ∧ u.req = s.req ∧
          (∀ k, u.slot k = if (s.slot k).state = .running then { s.slot k with state := .held } else s.slot k) ∧
          (∀ n, u.channel n = match (s.channel n).owner with
            | some k => if (s.slot k).state = .running then (s.channel n).frozen s.showTime else s.channel n
            | none => s.channel n) ∧
          ∀ v, u.voice v = match (s.voice v).state with
            | .playing => { s.voice v with state := .paused, resumeTo := some .playing }
            | .starved => { s.voice v with state := .paused, resumeTo := some .starved }
            | .draining => { s.voice v with state := .paused, resumeTo := some .draining }
            | _ => s.voice v)) ∧
    (s.headIs .releaseShow c rest →
      (s.ctl.state ≠ .hold → Leaves .releaseShow s refused) ∧
      (s.ctl.state = .hold →
        let u := (perform .releaseSlots (accepted.changeShow .run)).1
        exec .releaseShow s = .next (follow 1 (u,
            (((fins 8).filter fun k => (s.slot k).state == .held).map fun k => .takeSteps k none) ++
              .resumeVoices :: ((s.enabledAxes.map fun n => .removeReason n .hold) ++ [.askScan]))) ∧
          u.ctl = { s.ctl with state := .run } ∧ u.report = (accepted.produce (.showState .hold .run)).report ∧
          (∀ k, u.slot k = if (s.slot k).state = .held then { s.slot k with state := .running } else s.slot k) ∧
          ∀ n, u.channel n = match (s.channel n).owner with
            | some k => if (s.slot k).state = .held then (s.channel n).thawed s.showTime else s.channel n
            | none => s.channel n))

/-- R177, R178, R127: ENTER SAFE in RUN, HOLD or DRAINING enters SAFE, sets the house lights, abandons a restore read
(its record's place is log 19's) and tells the units in the order listed; in SAFE it changes nothing. LEAVE SAFE is refused while a SEVERE record stands; else
the show enters RUN, scans and makes the ambient re-requests, and the house lights stay. -/
def Obligations.SafeIsEnteredAndLeft : Prop :=
  ∀ (s : State) (c : TakenCue) (rest : List CueEntry),
    let accepted := s.answered c rest .accepted
    (s.headIs .enterSafe c rest →
      (s.ctl.state = .safe ∨ s.ctl.state = .unconfigured → Leaves .enterSafe s accepted) ∧
      (s.ctl.state = .run ∨ s.ctl.state = .hold ∨ s.ctl.state = .draining →
        let v := (accepted.changeShow .safe).abandonRestore
        let notices : List Task := .dropAll .safe :: ((fins 8).map (fun k => .stopSlot k .safe) ++
          (fins 128).map .safeChannel ++ (fins 8).map .idleVoice ++ (fins 12).map .safeAxis ++
          (if s.ctl.state = .hold then [.clearHold] else []))
        Asks .enterSafe s { v with lamp := { v.lamp with houseLights := true } } notices ∧
          v.ctl = { s.ctl with state := .safe, restore := none } ∧
          (s.ctl.restore = none → v.report = (accepted.produce (.showState s.ctl.state .safe)).report) ∧
          (s.ctl.restore.isSome = true → v.report =
            ((accepted.produce (.showState s.ctl.state .safe)).produce (.restoreDone .abandoned 0)).report) ∧
          ∃ t, exec .enterSafe s = .next t ∧ t.ctl.state = .safe ∧ t.lamp.houseLights = true)) ∧
    (s.headIs .leaveSafe c rest →
      (s.ctl.state ≠ .safe → Leaves .leaveSafe s (s.answered c rest (.refused .wrongState))) ∧
      (s.ctl.state = .safe → (∃ b : Bank, (s.bank b).isSevere = true) →
        Leaves .leaveSafe s (s.answered c rest (.refused .severeOutstanding))) ∧
      (s.ctl.state = .safe → (∀ b : Bank, (s.bank b).isSevere = false) →
        let v := accepted.produce (.showState .safe .run)
        Asks .leaveSafe s { v with ctl := { s.ctl with state := .run } } [.askScan, .reRequest]))

/-- R182: CLEAR FAULT makes the bank's record invalid with every field clear, marks the Fault Page dirty, and is accepted
in every show state in which cues are taken; attention follows, and the show state stays. The mark stands, or has begun a
pass of an idle page writer at the event's end. -/
def Obligations.FaultIsCleared : Prop :=
  ∀ (s : State) (c : TakenCue) (rest : List CueEntry) (b : Bank), s.headIs .clearFault c rest →
    paramByte c.params 4 = b.place.val →
    let u := s.answered c rest .accepted
    let v := { u with fault := { s.fault with
                banks := put s.fault.banks b.place ⟨false, none, none, [], 0, false, false⟩, dirty := true } }
    Asks .clearFault s v [] ∧ Leaves .clearFault s v ∧ v.bank b = .invalid ∧ (∀ d, d ≠ b → v.bank d = s.bank d) ∧
      ∃ t, exec .clearFault s = .next t ∧ t.ctl = s.ctl ∧ AttentionLaw t ∧
        (t.fault.dirty = true ∨ s.fault.writer = none ∧ t.fault.dirty = false ∧ t.fault.writer = some 0)

/-- R75 to R78, R88, R111: REQUEST SCENE is answered as admission decides, and a queued request is the queue's tail and
asks for a scan. STOP SCENE drops the scene's queued request and stops its slots; STOP ALL stops every slot that is not
FREE, the queue left as it is. That the slots stopped are those at the take is the model's choice (log 13). -/
def Obligations.SceneCuesAct : Prop :=
  ∀ (s : State) (c : TakenCue) (rest : List CueEntry),
    let accepted := s.answered c rest .accepted
    (s.headIs .requestScene c rest → ∀ n : Fin 32, paramByte c.params 4 = n.val →
      (∀ reason drop, s.admission n (.cue c.tag) = .turnedAway reason drop →
        Leaves .requestScene s (s.answered c rest (.refused reason))) ∧
      (s.admission n (.cue c.tag) = .merged → Leaves .requestScene s (s.answered c rest .merged)) ∧
      ∀ restart, s.admission n (.cue c.tag) = .queued restart →
        let limit := (s.sceneRecord n).waitLimit
        let v := { s.answered c rest .queued with
          req := { s.req with queue := s.req.queue ++ [⟨n, .cue c.tag, 1000 * limit, limit == 0, .waiting, restart⟩] } }
        Asks .requestScene s v [.askScan] ∧ (s.ctl.state = .hold → Leaves .requestScene s v)) ∧
    (s.headIs .stopScene c rest → ∀ n : Fin 32, paramByte c.params 4 = n.val →
      ((s.sceneRecord n).isEnabled = false → Leaves .stopScene s (s.answered c rest (.refused .range))) ∧
      ((s.sceneRecord n).isEnabled = true →
        let holders := (fins 8).filter fun k =>
          (s.slot k).state != .free && ((s.slot k).holding.map Holding.scene == some n)
        let u := accepted.dropWhere (fun r => r.scene == n) .stopped
        Asks .stopScene s u (holders.map fun k => .stopSlot k .stopped) ∧
          u.req.queue = s.req.queue.filter (fun r => r.scene != n) ∧ (holders = [] → Leaves .stopScene s u))) ∧
    (s.headIs .stopAll c rest →
      Asks .stopAll s accepted (((fins 8).filter fun k => (s.slot k).state != .free).map fun k => .stopSlot k .stopped) ∧
        accepted.req = s.req ∧
        ((∀ k, (s.slot k).state = .free) → Leaves .stopAll s accepted))

/-! ## Faults (file 11) -/

/-- R180, R183: what becomes of an arriving fault. Its bank's record, the FAULT record of a logged fault at or above the
report threshold, the dirty mark of a changed record where the fault `marks` it, as every fault does but FAULT PAGE WRITE
FAILED, and nothing else. Detail words no rule names are 0 (log 26). R177, R181: a SEVERE fault gives the SAFE trigger when a
bank holds a valid SEVERE record; the trigger sets SAFE-pending in START, enters SAFE from RUN, HOLD and DRAINING (where the
record of an abandoned restore stands is log 19's), and changes nothing in UNCONFIGURED and SAFE. -/
def Obligations.FaultsAreLogged : Prop :=
  ∀ (s : State) (code : FaultCode) (detail : List Nat) (marks : Bool),
    let t := s.logMarking marks code detail
    let r := s.bank code.bank
    let sev := code.severity
    let words := detailWords detail
    let off := sev ≠ .severe ∧ (s.policy code.bank).logEnable ≠ 1
    let told := if (s.policy code.bank).threshold ≤ sev.code then s.report.joined ⟨.fault code words, s.showTime⟩ else s.report
    { t with fault := s.fault, report := s.report } = s ∧ (∀ b, b ≠ code.bank → t.bank b = s.bank b) ∧
      (t.fault.dirty = true ↔ s.fault.dirty = true ∨ marks = true ∧ t.bank code.bank ≠ r) ∧
      t.fault.writer = s.fault.writer ∧ s.log code detail = s.logMarking true code detail ∧
      (off → t = s) ∧
      (¬ off → r.valid = false →
        t.bank code.bank = ⟨true, some sev, some code, words, s.showTime, false, false⟩ ∧ t.report = told) ∧
      (¬ off → r.valid = true → ∀ held, r.severity = some held →
        (held.code < sev.code →
          t.bank code.bank = ⟨true, some sev, some code, words, s.showTime, true, r.showStateLost⟩ ∧ t.report = told) ∧
        (sev.code ≤ held.code →
          t.bank code.bank = { r with overflow := true, showStateLost := r.showStateLost || sev == .severe } ∧
            t.report = s.report)) ∧
      ((∃ b : Bank, (s.bank b).isSevere = true) → s.trigger = [.safeTrigger]) ∧
      ((∀ b : Bank, (s.bank b).isSevere = false) → s.trigger = []) ∧
      (s.ctl.state = .start →
        perform .safeTrigger s = ({ s with ctl := { s.ctl with safePending := true } }, [])) ∧
      (s.ctl.state = .unconfigured ∨ s.ctl.state = .safe → perform .safeTrigger s = (s, [])) ∧
      (s.ctl.state = .run ∨ s.ctl.state = .hold ∨ s.ctl.state = .draining →
        let told := s.produce (.showState s.ctl.state .safe)
        let e := perform .safeTrigger s
        e.2 = .dropAll .safe :: ((fins 8).map (fun k => .stopSlot k .safe) ++ (fins 128).map .safeChannel ++
          (fins 8).map .idleVoice ++ (fins 12).map .safeAxis ++ (if s.ctl.state = .hold then [.clearHold] else [])) ∧
        e.1.ctl = { s.ctl with state := .safe, restore := none } ∧ e.1.lamp = { s.lamp with houseLights := true } ∧
        (s.ctl.restore = none → e.1.report = told.report ∧ e.1.arb = s.arb ∧ e.1.port = s.port) ∧
        (s.ctl.restore.isSome = true → e.1.report = (told.produce (.restoreDone .abandoned 0)).report ∧
          e.1.arb = { s.arb with lookups := s.arb.lookups.filter fun l => l.who != .restore } ∧
          ∀ f, s.port = some f → e.1.port = some { f with live := f.live && !f.purpose.isRestore }) ∧
        { e.1 with ctl := s.ctl, lamp := s.lamp, report := s.report, arb := s.arb, port := s.port } = s)

/-! ## Guards and visitor inputs (file 04) -/

/-- R66, R68: a guard line going active or inactive, and the settle deadline, by the guard state of the zone it is wired
to. CLEAR becomes TRIPPED and hands GUARD to the zone's axes; SETTLING goes back to TRIPPED; TRIPPED becomes SETTLING with
its deadline; at the deadline GUARD is removed. That the zone's axes take and lose GUARD in rising number is the model's choice
(log 35). A line no enabled zone names changes its level alone. -/
def Obligations.GuardsTripAndSettle : Prop :=
  ∀ (s : State) (line : Fin 8), s.resetLow = false →
    let wired := fun z : Fin 8 => (s.zoneRecord z).isEnabled = true ∧ (s.zoneRecord z).guardInput = line.val
    let at' := fun l : Level => { s with lines := { s.lines with guard := put s.lines.guard line l } }
    (s.lines.guard.get line = .inactive →
      ((∀ z, ¬ wired z) → Leaves (.guardInputActive line) s (at' .active)) ∧
      ∀ z, wired z → (∀ y, wired y → y = z) →
        ((s.zone z).guard = .clear →
          Asks (.guardInputActive line) s ((at' .active).setZone z { s.zone z with guard := .tripped })
            ((s.zoneAxes z).map fun n => .addReason n .guard)) ∧
        ((s.zone z).guard = .clear → s.zoneAxes z = [] →
          Leaves (.guardInputActive line) s ((at' .active).setZone z { s.zone z with guard := .tripped })) ∧
        ((s.zone z).guard = .settling →
          Leaves (.guardInputActive line) s ((at' .active).setZone z { s.zone z with guard := .tripped, settle := none })) ∧
        ((s.zone z).guard = .tripped → Leaves (.guardInputActive line) s (at' .active))) ∧
    (s.lines.guard.get line = .active →
      ((∀ z, ¬ wired z) → Leaves (.guardInputInactive line) s (at' .inactive)) ∧
      ∀ z, wired z → (∀ y, wired y → y = z) →
        ((s.zone z).guard = .tripped →
          Leaves (.guardInputInactive line) s ((at' .inactive).setZone z { s.zone z with
            guard := .settling, settle := some (s.showTime + BitVec.ofNat 32 (s.zoneRecord z).settleTime) })) ∧
        ((s.zone z).guard ≠ .tripped → Leaves (.guardInputInactive line) s (at' .inactive))) ∧
    ∀ z d, (s.zone z).guard = .settling → (s.zone z).settle = some d → reached d s.showTime = true →
      let u := s.setZone z { s.zone z with guard := .clear, settle := none }
      Asks (.settleDeadline z) s u ((s.zoneAxes z).map fun n => .removeReason n .guard) ∧
        (s.zoneAxes z = [] → Leaves (.settleDeadline z) s u)

/-- R57, R69 to R72, R104: a visitor line's change sets the raw level and the debounce deadline; at the deadline the raw
level is taken, a press edge asks for its scene or steps its zone's language, and the slots that wait on the input are
told; that the press comes before them (log 30) and that they are woken in rising slot number (log 36) are the model's
choices. -/
def Obligations.VisitorLevelsAreTaken : Prop :=
  ∀ (s : State) (i : Fin 24), s.resetLow = false →
    let x := s.input i
    let r := s.inputRecord i
    (∀ l, s.lines.visitor.get i ≠ l →
      let moved := { s with lines := { s.lines with visitor := put s.lines.visitor i l } }
      (s.dir.taken = none → Leaves (.visitorLineChange i l) s moved) ∧
      ∀ d, s.dir.taken = some d → Leaves (.visitorLineChange i l) s (moved.setInput i { x with
        raw := l
        deadline := if l = x.debounced then none else some (s.showTime + BitVec.ofNat 32 d.debounce) })) ∧
    ∀ d, x.deadline = some d → reached d s.showTime = true →
      let t := s.setInput i { x with debounced := x.raw, deadline := none }
      let waits := (fins 8).filter fun k => match (s.slot k).wait with
        | some ⟨.input j _, _, _⟩ => j == i
        | _ => false
      let wakes := waits.map Task.wakeSlot
      let presses := x.raw = .active
      (¬ presses ∨ r.kind ≠ 1 ∧ r.kind ≠ 2 ∧ r.kind ≠ 3 ∨ (r.kind = 1 ∨ r.kind = 2) ∧ 32 ≤ r.scene →
        Asks (.debounceDeadline i) s t wakes ∧ (waits = [] → Leaves (.debounceDeadline i) s t)) ∧
      (∀ n : Fin 32, presses → r.kind = 1 ∨ r.kind = 2 → r.scene = n.val →
        Asks (.debounceDeadline i) s (t.request n (.trigger i)).1 ((t.request n (.trigger i)).2 ++ wakes)) ∧
      (∀ z : Fin 8, presses → r.kind = 3 → r.zone = z.val →
        let l := (s.zone z).language
        let u := t.setZone z { s.zone z with language := if l + 1 < s.languageCount then l + 1 else 0 }
        Asks (.debounceDeadline i) s u wakes ∧ (waits = [] → Leaves (.debounceDeadline i) s u))

/-! ## Requests and zones (files 04 and 05) -/

/-- R76 to R79, R86: admission's steps in order, for every origin; a TRIGGER or AUTO request that is turned away with a
reason gives REQUEST DROPPED; the cooldown deadline clears itself; a WAITING request whose wait has run out is dropped as
EXPIRED, in HOLD too by log 53. -/
def Obligations.RequestsAreAdmittedAndExpire : Prop :=
  ∀ (s : State) (n : Fin 32) (o : Origin),
    let r := s.sceneRecord n
    let closed := ∃ z ∈ r.zones, (s.zone z).closed = true
    let runs := ∃ k h, (s.slot k).holding = some h ∧ h.scene = n ∧
      ((s.slot k).state = .loading ∨ (s.slot k).state = .running ∨ (s.slot k).state = .held)
    let cooling := (∃ i, o = .trigger i) ∧ (s.req.cooldown.get n).isSome = true
    let queued := ∃ q ∈ s.req.queue, q.scene = n
    let open' := r.isEnabled = true ∧ ¬ closed
    let taken := open' ∧ (s.ctl.state = .run ∨ s.ctl.state = .hold) ∧ ¬ cooling
    (r.isEnabled = false → s.admission n o = .turnedAway .range (some .disabled)) ∧
    (r.isEnabled = true → closed → s.admission n o = .turnedAway .zoneClosed (some .zoneClosed)) ∧
    (open' → s.ctl.state = .draining ∨ s.ctl.state = .start → s.admission n o = .turnedAway .reloading (some .reloading)) ∧
    (open' → s.ctl.state = .safe → s.admission n o = .turnedAway .wrongState (some .wrongState)) ∧
    (open' → s.ctl.state = .run ∨ s.ctl.state = .hold → cooling → s.admission n o = .turnedAway .busy none) ∧
    (taken → queued → s.admission n o = .merged) ∧
    (taken → ¬ queued → runs → r.policy = 0 → s.admission n o = .turnedAway .busy none) ∧
    (taken → ¬ queued → ¬ (runs ∧ r.policy = 0) → 16 ≤ s.req.queue.length →
      s.admission n o = .turnedAway .queueFull (some .queueFull)) ∧
    (taken → ¬ queued → ¬ (runs ∧ r.policy = 0) → s.req.queue.length < 16 →
      ∃ restart, s.admission n o = .queued restart ∧ (restart = true ↔ runs ∧ r.policy = 1)) ∧
    (∀ a reason, s.admission n o = .turnedAway a (some reason) →
      s.request n o = (s.produce (.requestDropped n o reason), [])) ∧
    (∀ a, s.admission n o = .turnedAway a none → s.request n o = (s, [])) ∧
    (s.admission n o = .merged → s.request n o = (s, [])) ∧
    (∀ restart, s.admission n o = .queued restart →
      s.request n o = ({ s with req := { s.req with
          queue := s.req.queue ++ [⟨n, o, 1000 * r.waitLimit, r.waitLimit == 0, .waiting, restart⟩] } }, [.askScan])) ∧
    (s.resetLow = false →
      (∀ d, s.req.cooldown.get n = some d → reached d s.showTime = true →
        Leaves (.cooldownDeadline n) s { s with req := { s.req with cooldown := put s.req.cooldown n none } }) ∧
      ∀ q before after, s.req.queue = before ++ q :: after → q.scene = n → (∀ p ∈ before ++ after, p.scene ≠ n) →
        q.state = .waiting → q.single = false → q.remaining = 0 →
        Leaves (.requestExpires n) s
          ((({ s with req := { s.req with queue := before ++ after } } : State).unreserve n).produce
            (.requestDropped n q.origin .expired)))

/-- R59 to R61, R110: claims, reservations and releases reach exactly the zones of the scene or of the slot, change nothing
else of them, and the release comes before the scan of the slot's FREE. -/
def Obligations.ZonesAreClaimed : Prop :=
  ∀ (s : State) (k : Fin 8) (n : Fin 32) (z : Fin 8),
    let x := s.zone z
    let mine := z ∈ (s.sceneRecord n).zones
    (mine → (s.claim k n).zone z =
      { x with owner := some k, reservation := if x.reservation = some n then none else x.reservation }) ∧
    (mine → (s.reserve n).zone z = { x with reservation := some n }) ∧
    (¬ mine → (s.claim k n).zone z = x ∧ (s.reserve n).zone z = x) ∧
    ((s.unreserve n).zone z = if x.reservation = some n then { x with reservation := none } else x) ∧
    ((s.releaseZones k).zone z = if x.owner = some k then { x with owner := none } else x) ∧
    (∀ t ∈ [s.claim k n, s.reserve n, s.unreserve n, s.releaseZones k], { t with zones := s.zones } = s) ∧
    ((s.slot k).state = .stopping → s.woundDown k = true →
      (perform (.testWound k) s).1.zones = (s.releaseZones k).zones ∧
        (perform (.testWound k) s).2 = [.quietTest, .askScan, .reRequest])

/-- R79 to R85, R93, R166: a WAITING request at its turn in a scan. A restart-marked one is restarted into the scene's
LOADING or RUNNING slot, its record before the restart's cuts and halts (that order is log 28's); one that an older request
blocks stays; one whose zones are all free starts in the lowest FREE slot; one whose zones may be taken from lower classes
reserves them and stops their slots; any other stays. A PREEMPTING request whose zones are unowned starts in the lowest FREE
slot. R80, R87: a scan is made in RUN alone, one at a time, the PREEMPTING requests first; it ends with the single-chance
removals and then the scan and re-requests asked meanwhile. R91: an ambient re-request. R89, R90: what a removal does. -/
def Obligations.ScanJudgesWaiting : Prop :=
  (∀ (s : State) (r : Request) (before after : List Request), s.req.queue = before ++ r :: after →
    (∀ p ∈ before ++ after, p.scene ≠ r.scene) → r.state = .waiting →
    let e := perform (.judgeWaiting r.scene) s
    let rec' := s.sceneRecord r.scene
    let restarts := fun k : Fin 8 => ((s.slot k).state = .loading ∨ (s.slot k).state = .running) ∧
      ∃ h, (s.slot k).holding = some h ∧ h.scene = r.scene
    let again := r.restart = true ∧ ∃ k, restarts k
    let blocked := ∃ q ∈ before, ∃ z, z ∈ (s.sceneRecord q.scene).zones ∧ z ∈ rec'.zones
    let free := fun z : Fin 8 => (s.zone z).closed = false ∧ (s.zone z).owner = none ∧ (s.zone z).reservation = none ∧
      (s.zone z).cueHoming = []
    let lowest := fun k : Fin 8 => (s.slot k).state = .free ∧ ∀ j < k, (s.slot j).state ≠ .free
    let starts := (∃ k, (s.slot k).state = .free) ∧ ∀ z ∈ rec'.zones, free z
    let weaker := fun k : Fin 8 => ((s.slot k).state = .loading ∨ (s.slot k).state = .running ∨ (s.slot k).state = .held) ∧
      ∃ h, (s.slot k).holding = some h ∧ h.cls.rank < rec'.sceneClass.rank
    let preempts := (∀ z ∈ rec'.zones, (s.zone z).closed = false ∧ (s.zone z).reservation = none ∧
        (s.zone z).cueHoming = [] ∧ ∀ k, (s.zone z).owner = some k → weaker k) ∧
      ∃ z ∈ rec'.zones, (s.zone z).owner ≠ none
    let deadline : Option Time :=
      if rec'.cooldown = 0 then none else some (s.showTime + BitVec.ofNat 32 (1000 * rec'.cooldown))
    let removed := { s.req with queue := before ++ after, cooldown := put s.req.cooldown r.scene deadline }
    (∀ k, r.restart = true → restarts k → (∀ j < k, ¬ restarts j) →
      e = (({ s with req := removed } : State).produce (.sceneStarted r.scene k r.origin true), [.restart k])) ∧
    (¬ again → blocked → e = (s, [])) ∧
    (¬ again → ¬ blocked → starts → ∀ k, lowest k →
      e = ({ (s.claim k r.scene) with
          slots := put s.slots k { Slot.reset with
            state := .loading, holding := some ⟨r.scene, rec'.sceneClass, s.showTime⟩ }
          pins := put s.pins (State.slotPlace k) (some ⟨⟨rec'.script, rec'.script + 16 * rec'.steps⟩, none⟩)
          req := removed
          report := s.report.joined ⟨.sceneStarted r.scene k r.origin false, s.showTime⟩ }, [])) ∧
    (¬ again → ¬ blocked → ¬ starts → preempts →
      e = ({ (s.reserve r.scene) with
          req := { s.req with queue := before ++ { r with state := .preempting } :: after } },
        ((fins 8).filter fun k => rec'.zones.any fun z => (s.zone z).owner == some k).map fun k => .stopSlot k .preempted)) ∧
    (¬ again → ¬ blocked → ¬ starts → ¬ preempts → e = (s, []))) ∧
  (∀ (s : State) (r : Request) (before after : List Request), s.req.queue = before ++ r :: after →
    (∀ p ∈ before ++ after, p.scene ≠ r.scene) → r.state = .preempting →
    let e := perform (.judgePreempting r.scene) s
    let rec' := s.sceneRecord r.scene
    let unowned := ∀ z ∈ rec'.zones, (s.zone z).owner = none
    let deadline : Option Time :=
      if rec'.cooldown = 0 then none else some (s.showTime + BitVec.ofNat 32 (1000 * rec'.cooldown))
    (¬ unowned ∨ (∀ k, (s.slot k).state ≠ .free) → e = (s, [])) ∧
    ∀ k, unowned → (s.slot k).state = .free → (∀ j < k, (s.slot j).state ≠ .free) →
      e = ({ (s.claim k r.scene) with
        slots := put s.slots k { Slot.reset with
          state := .loading, holding := some ⟨r.scene, rec'.sceneClass, s.showTime⟩ }
        pins := put s.pins (State.slotPlace k) (some ⟨⟨rec'.script, rec'.script + 16 * rec'.steps⟩, none⟩)
        req := { s.req with queue := before ++ after, cooldown := put s.req.cooldown r.scene deadline }
        report := s.report.joined ⟨.sceneStarted r.scene k r.origin false, s.showTime⟩ }, [])) ∧
  (∀ s : State, ScanIsMade s) ∧ ∀ s : State, RequestsAreRemoved s

/-! ## Scene slots and scripts (file 06) -/

/-- R94 to R96, R113: a script line enters the steps from the fetch index to the end of the line or of the script, and the
load is tested; a load ends RUNNING, or HELD in HOLD. A failed read is logged and stops the slot. A discarded read changes
nothing but the fault its error logs. -/
def Obligations.ScriptLinesArrive : Prop :=
  ∀ (s : State) (f : InFlight) (k : Fin 8), s.resetLow = false → s.port = some f → f.purpose = .script k →
    let x := s.slot k
    let free := { s with port := none }
    let last := (s.slotScene k).steps
    let place := ((s.slotScene k).script + 16 * x.fetch) % 64 / 16
    let count := min (4 - place) (last - x.fetch)
    (∀ data, data.length = f.length →
      (f.live = false → Leaves (.scriptLineArrives data) s free) ∧
      (f.live = true →
        let entered : Slot := { x with
          buffer := x.buffer ++ (List.range count).map fun i => ⟨slice data (16 * (place + i)) 16⟩
          fetch := x.fetch + count
          lines := if x.state = .loading then min 2 (x.lines + 1) else x.lines }
        let u := free.setSlot k entered
        Asks (.scriptLineArrives data) s u [.endLoad k (some x.fetch), .takeSteps k (some x.fetch)] ∧
          (x.state = .loading → entered.lines < 2 → entered.fetch < last → Leaves (.scriptLineArrives data) s u) ∧
          (x.state = .held ∨ x.state = .running ∧ x.wait.isSome = true → Leaves (.scriptLineArrives data) s u) ∧
          (x.state = .loading → 2 ≤ entered.lines ∨ last ≤ entered.fetch → s.ctl.state = .hold →
            Leaves (.scriptLineArrives data) s ((free.setSlot k { entered with
              state := .held, clock := x.savedClock.getD 0, savedClock := none }).freezeFades k)) ∧
          (x.state = .loading → 2 ≤ entered.lines ∨ last ≤ entered.fetch → s.ctl.state ≠ .hold →
            exec (.scriptLineArrives data) s = .next (follow 1 (free.setSlot k { entered with
                state := .running, clock := x.savedClock.getD 0, savedClock := none },
              [.takeSteps k (some x.fetch), .takeSteps k (some x.fetch)]))))) ∧
    (f.live = false → Leaves .scriptReadFailed s (free.log .scriptReadFailed [k.val, f.addr])) ∧
    (f.live = true → ∀ h, x.holding = some h → Asks .scriptReadFailed s
      (free.log .scriptReadFailed [k.val, h.scene.val, h.startTime.toNat, f.addr]) [.stopSlot k .scriptReadFailed])

/-- R98 to R101, R105, R121, R133, R141: a due step. A step that fails a check, an unknown kind among them, logs SCRIPT FAULT
with the first check that fails and stops the slot. LAMP owns and fades its channels; NARRATE reaches its zone's voice by the
voice's state, a cut one staying silent where it was (log 39); MARK gives its record; END stops the slot as COMPLETED. Then
the steps now due are taken. That a check's number is its place, the kind's first, is DEDUCED (log 31). The first step of a
line taken as the line arrives, more than 100 ms late, logs STEP LATE and is taken all the same; that a run judges that step
alone is log 29's, and that STEP LATE comes before the step's own fault or record log 50's. -/
def Obligations.StepsAct : Prop :=
  ∀ (s : State) (k : Fin 8) (t : Step) (rest : List Step),
    let u := s.pastStep k rest
    (∀ c kind, (c, kind) ∈ [(Instr.lampStep k, some StepKind.lamp), (.narrateStep k, some .narrate),
        (.moveStep k, some .move), (.waitStep k, some .wait), (.markStep k, some .mark), (.loopStep k, some .loop),
        (.endStep k, some .finish), (.unknownStepKind k, none)] →
      s.stepIs k kind t rest → ¬ s.stepPasses k t → ∀ h, (s.slot k).holding = some h →
      ∃ check, s.failingCheck (s.slotScene k) (s.slot k).next t = some check ∧
        exec c s = .next (follow 1 (u.log .scriptFault
          [k.val, h.scene.val, h.startTime.toNat, (s.slot k).next, check], [.stopSlot k .scriptFault]))) ∧
    ( let check := s.failingCheck (s.slotScene k) (s.slot k).next t
      (check = none ↔ s.stepPasses k t) ∧ (t.kind = none → check = some 0) ∧
      ∀ kind n, t.kind = some kind → check = some n →
        let checks := [true, decide (t.offset ≤ 3600000)] ++ s.ownChecks (s.slotScene k) (s.slot k).next t kind
        checks[n]? = some false ∧ ∀ j < n, checks[j]? = some true) ∧
    (∀ kind arrived h, s.stepIs k kind t rest → (s.slot k).holding = some h →
      let late := (s.slot k).clock - t.offset
      let detail := [k.val, h.scene.val, h.startTime.toNat, (s.slot k).next]
      let told := if arrived = some (s.slot k).next ∧ 100 < late then u.log .stepLate (detail ++ [late]) else u
      perform (.takeSteps k arrived) s =
        match s.failingCheck (s.slotScene k) (s.slot k).next t with
        | some check => (told.log .scriptFault (detail ++ [check]), [.stopSlot k .scriptFault])
        | none => told.act k (s.slot k).next t) ∧
    (s.stepIs k (some .lamp) t rest → s.stepPasses k t →
      let v := u.lightChannels k t.firstChannel t.channelCount t.level t.fade
      Steps (.lampStep k) s v k ∧ { v with lamp := s.lamp } = u ∧ { v.lamp with channels := s.lamp.channels } = s.lamp ∧
        ∀ c : Fin 128, v.channel c =
          if t.firstChannel ≤ c.val ∧ c.val < t.firstChannel + t.channelCount then
            { s.channel c with owner := some k, releasing := false,
                               fade := some ⟨(s.channel c).level, t.level, t.fade, 0, some s.showTime⟩ }
          else s.channel c) ∧
    (s.stepIs k (some .narrate) t rest → s.stepPasses k t → ∀ z : Fin 8, t.subject = z.val →
      let x := s.voice z
      ((x.state = .idle → Steps (.narrateStep k) s
          (u.setVoice z { x with owner := some k, group := some t.group, state := .lookup }) k) ∧
        (x.state = .lookup → Steps (.narrateStep k) s
          ((u.dropVoiceRequest z).setVoice z { x with group := some t.group }) k) ∧
        (x.state.hasClip = true → Steps (.narrateStep k) s
          ((u.dropVoiceRequest z).setVoice z { x with
            state := .stopping, cutDeadline := some (s.showTime + 50), pendingGroup := some t.group, resumeTo := none,
            muted := x.state == .paused || x.state == .starved }) k) ∧
        (x.state = .stopping → Steps (.narrateStep k) s (u.setVoice z { x with pendingGroup := some t.group }) k))) ∧
    (s.stepIs k (some .mark) t rest → s.stepPasses k t → ∀ h, (s.slot k).holding = some h →
      Steps (.markStep k) s (u.produce (.stepMark h.scene k (s.slot k).next t.value)) k) ∧
    (s.stepIs k (some .finish) t rest → s.stepPasses k t →
      exec (.endStep k) s = .next (follow 1 (u, [.stopSlot k .completed])))

/-- R102, R150: a MOVE step, by the axis's state. A rest state begins a move, homing first where the position is not known,
suspended at once with a reason; a motion of the slot takes the new target and its elapsed time starts again; a homing or a
halt takes it as the pending move; a FAULTED axis whose stall input is active stops the slot instead. The axis is first
brought to the present instant (log 11). -/
def Obligations.MoveStepActs : Prop :=
  ∀ (s : State) (k : Fin 8) (t : Step) (rest : List Step) (n : Fin 12), s.stepIs k (some .move) t rest →
    s.stepPasses k t → t.subject = n.val →
    let u := s.pastStep k rest
    let rec' := s.axisRecord n
    let a := s.syncedAxis n
    let p := t.position
    let goes := fun (b : Axis) (tasks : List Task) =>
      exec (.moveStep k) s = .next (follow 1 (u.setAxis n b, tasks ++ [.takeSteps k none]))
    let begun : Axis :=
      { a with owner := .slot k, elapsed := 0, suspendedTotal := 0, driverEnabled := true, suspendedSince := none,
               origin := a.position, run := some (.restAt (.whole a.position)), profileMs := 0, timedOut := false,
               target := if a.homed then some p else none, pendingMove := if a.homed then none else some p }
    let first := if a.homed then ResumeAxis.moving else .homing
    let rests := a.state = .idle ∨ a.state = .unhomed ∨ a.state = .faulted ∧ s.lines.stall.get n = .inactive
    (rests → a.hasReason = true → ∃ b, goes b [.findHome n, .arrive n] ∧
      b = { begun with state := .suspended, resumeTo := some first, suspendedSince := some s.showTime }) ∧
    (rests → a.hasReason = false → a.homed = true → ∃ b, goes b [.findHome n, .arrive n] ∧ b.state = .moving ∧
      b = { begun with state := .moving, resumeTo := none, run := b.run, direction := b.direction } ∧
      (b.run, b.direction) =
        let q := Run.toward rec' p (.whole 0) (.whole a.position) (.whole 0) a.direction
        (some q.1, q.2)) ∧
    (rests → a.hasReason = false → a.homed = false → goes { begun with
        state := .homing, resumeTo := none, direction := homeDirection rec' } [.findHome n, .arrive n]) ∧
    (a.state = .faulted → s.lines.stall.get n = .active →
      exec (.moveStep k) s = .next (follow 1 (u, [.stopSlot k .axisFault, .takeSteps k none]))) ∧
    (a.state = .moving →
      let q := Run.toward rec' p (.whole a.profileMs) (a.place rec') (a.speed rec') a.direction
      goes { a with target := some p, run := some q.1, direction := q.2, elapsed := 0 } [.arrive n]) ∧
    (a.state = .suspending → goes { a with target := some p, elapsed := 0 } []) ∧
    (a.state = .suspended → a.resumeTo ≠ some .homing → goes { a with target := some p, elapsed := 0 } []) ∧
    (a.state = .homing ∨ a.state = .suspended ∧ a.resumeTo = some .homing → goes { a with pendingMove := some p } []) ∧
    (a.state = .halting → goes { a with pendingMove := some p, owner := .slot k } [])

/-- R98, R103, R104, R106, R107: a WAIT step whose condition holds is complete, another sets the slot's wait; its timeout
goes on or stops the slot, a HELD one's too where it reached 0 in the ms HOLD was entered (log 52). A LOOP step jumps while its count lasts: next and fetch index become the target, the buffer is
emptied, the fetch discarded, the clock takes the target's offset, and the run of steps ends; a record of its own with 1
remaining goes on, and so does one restored with 0, which is log 38's. A script with no step left ends as COMPLETED. -/
def Obligations.WaitsAndLoops : Prop :=
  ∀ (s : State) (k : Fin 8),
    let x := s.slot k
    (∀ t rest, s.stepIs k (some .wait) t rest → s.stepPasses k t →
      let u := s.pastStep k rest
      ∀ c, t.condition = some c →
        (s.conditionHolds c = true → Steps (.waitStep k) s u k) ∧
        (s.conditionHolds c = false → Leaves (.waitStep k) s (u.setSlot k { u.slot k with
          wait := some ⟨c, if t.timeout = 0 then none else some t.timeout, t.onTimeout == 1⟩ }))) ∧
    (∀ t rest, s.stepIs k (some .loop) t rest → s.stepPasses k t →
      let u := s.pastStep k rest
      let jumped := fun l : Option LoopRecord => (u.dropFetch k).setSlot k { u.slot k with
        next := t.loopTarget, fetch := t.loopTarget, buffer := [], clock := min 3600000 t.targetOffset, loop := l }
      let mine := ∃ l, x.loop = some l ∧ l.index = x.next
      (t.loopCount = 0 → Leaves (.loopStep k) s (jumped x.loop)) ∧
      (¬ mine → 2 ≤ t.loopCount → Leaves (.loopStep k) s (jumped (some ⟨x.next, t.loopCount - 1⟩))) ∧
      (¬ mine → t.loopCount = 1 → Steps (.loopStep k) s (u.setSlot k { u.slot k with loop := none }) k) ∧
      ∀ l, x.loop = some l → l.index = x.next → 1 ≤ t.loopCount →
        (2 ≤ l.remaining → Leaves (.loopStep k) s (jumped (some ⟨x.next, l.remaining - 1⟩))) ∧
        (l.remaining ≤ 1 → Steps (.loopStep k) s (u.setSlot k { u.slot k with loop := none }) k)) ∧
    (∀ w, s.resetLow = false → x.state = .running ∨ x.state = .held → x.wait = some w → w.remaining = some 0 →
      let u := s.setSlot k { x with wait := none }
      (w.stops = true → Asks (.waitTimeout k) s u [.stopSlot k .waitTimeout]) ∧
      ∀ h, w.stops = false → x.holding = some h →
        let v := u.log .waitTimeout [k.val, h.scene.val, h.startTime.toNat, x.next - 1]
        (x.state = .running → Asks (.waitTimeout k) s v [.takeSteps k none] ∧
          (v.stepRests k → Leaves (.waitTimeout k) s v)) ∧
        (x.state = .held → Leaves (.waitTimeout k) s v)) ∧
    (s.resetLow = false → x.state = .running → x.wait = none → (s.slotScene k).steps ≤ x.next →
      Asks (.scriptRunsOut k) s s [.stopSlot k .completed])

/-- R105: a MARK step produces its STEP MARK record and is complete; an END step, and the end of the script, move the slot
to STOPPING with end reason COMPLETED, with nothing left in its buffer, so that no step after the END is taken. -/
def Obligations.MarkAndEndSteps : Prop :=
  ∀ (s : State) (k : Fin 8) (t : Step) (rest : List Step) (h : Holding), (s.slot k).holding = some h →
    (s.stepIs k (some .mark) t rest → t.offset ≤ 3600000 →
      Steps (.markStep k) s ((s.pastStep k rest).produce
        (.stepMark h.scene k (s.slot k).next (BitVec.ofNat 32 (word32At t.bytes 8)))) k) ∧
    (s.stepIs k (some .finish) t rest → t.offset ≤ 3600000 →
      ∃ v, exec (.endStep k) s = .next (follow 2 (v, [.testWound k])) ∧ (v.slot k).state = .stopping ∧
        (v.slot k).endReason = some .completed ∧ (v.slot k).buffer = [] ∧ v.report = s.report) ∧
    (s.resetLow = false → (s.slot k).state = .running → (s.slot k).wait = none → (s.slotScene k).steps ≤ (s.slot k).next →
      ∃ v, exec (.scriptRunsOut k) s = .next (follow 1 (v, [.testWound k])) ∧ (v.slot k).state = .stopping ∧
        (v.slot k).endReason = some .completed ∧ v.report = s.report) ∧
    ∀ u arrived, (u.slot k).state = .stopping → perform (.takeSteps k arrived) u = (u, [])

/-- R108 to R110, R122: a stop of a slot by its state, and the wound-down test, which frees a slot that owns nothing: its
zones released, its pin removed, SCENE ENDED produced, then the quiet test, a scan and the ambient re-requests; that clock,
next index and fetch index stand at a stop and at FREE is log 32's. R112, R123: a restart of a LOADING or RUNNING slot; that
its fields change before the cuts and halts is log 28's. R104: a slot whose condition holds is woken. R119, R127: a channel
given back at the end of its release fade, and at SAFE entry, is its owner's possession no more. -/
def Obligations.SlotsStopAndWindDown : Prop :=
  ∀ (s : State) (k : Fin 8) (reason : EndReason),
    let x := s.slot k
    let e := perform (.stopSlot k reason) s
    let quells := (s.ownedVoices k).map Task.cutVoice ++ (s.ownedAxes k).map Task.haltAxis
    let fetchDropped := fun u : State => u.arb = { s.arb with script := put s.arb.script k none } ∧
      u.port = s.port.map fun f => { f with live := f.live && f.purpose != .script k }
    (x.state = .free → e = (s, [])) ∧
    (x.state = .loading ∨ x.state = .running ∨ x.state = .held →
      e.1.slot k = { x with state := .stopping, endReason := some reason, wait := none, loop := none, buffer := [],
                            savedClock := none } ∧
        (∀ j, j ≠ k → e.1.slot j = s.slot j) ∧ fetchDropped e.1 ∧
        (∀ c, e.1.channel c =
          if (s.channel c).owner = some k then
            { s.channel c with
              releasing := true
              fade := some ⟨(s.channel c).level, (s.channel c).base, (s.slotScene k).releaseFade, 0, some s.showTime⟩ }
          else s.channel c) ∧
        e.1.report = s.report ∧ e.2 = (if reason = .completed then [] else quells) ++ [.testWound k]) ∧
    (x.state = .stopping → e = (s, if x.endReason = some .completed ∧ reason ≠ .completed then quells else [])) ∧
    (∀ h r, x.state = .stopping → x.holding = some h → x.endReason = some r → s.woundDown k = true →
      perform (.testWound k) s =
        ((((s.releaseZones k).setPin (State.slotPlace k) none).setSlot k
            { x with state := .free, holding := none, endReason := none }).produce (.sceneEnded h.scene k r),
          [.quietTest, .askScan, .reRequest])) ∧
    (x.state ≠ .stopping ∨ s.woundDown k = false → perform (.testWound k) s = (s, [])) ∧
    (s.woundDown k = true ↔ (∀ c, (s.channel c).owner ≠ some k) ∧ (∀ v, (s.voice v).owner ≠ some k) ∧
      ∀ n, (s.axis n).owner ≠ .slot k) ∧
    ( let again := perform (.restart k) s
      (x.state = .loading ∨ x.state = .running →
        again.1.slot k = { x with
          state := .loading, holding := x.holding.map fun h => { h with startTime := s.showTime }, clock := 0, next := 0,
          fetch := 0, buffer := [], lines := 0, wait := none, loop := none, savedClock := none } ∧
        (∀ j, j ≠ k → again.1.slot j = s.slot j) ∧ fetchDropped again.1 ∧
        (∀ c, again.1.channel c =
          if (s.channel c).owner = some k then { s.channel c with fade := none } else s.channel c) ∧
        again.1.zones = s.zones ∧ again.1.pins = s.pins ∧ again.1.report = s.report ∧ again.2 = quells) ∧
      (x.state ≠ .loading → x.state ≠ .running → again = (s, []))) ∧
    (x.wait = none → perform (.wakeSlot k) s = (s, [])) ∧
    (∀ w, x.wait = some w →
      (s.conditionHolds w.condition = false → perform (.wakeSlot k) s = (s, [])) ∧
      (s.conditionHolds w.condition = true → perform (.wakeSlot k) s =
        (s.setSlot k { x with wait := none }, if x.state = .running then [.takeSteps k none] else []))) ∧
    (∀ v, s.conditionHolds (.voice v) = true ↔ (s.voice v).state = .idle) ∧
    (∀ n, s.conditionHolds (.axis n) = true ↔ (s.axis n).owner = .nobody) ∧
    (∀ i l, s.conditionHolds (.input i l) = true ↔ (s.input i).debounced = l) ∧
    ∀ c : Fin 128,
      let y := s.channel c
      let tests := match y.owner with
        | some j => [Task.testWound j]
        | none => []
      (y.releasing = true → y.fade = none →
        perform (.giveUpChannel c) s = (s.setChannel c { y with owner := none, releasing := false }, tests)) ∧
      (y.releasing = false ∨ y.fade.isSome = true → perform (.giveUpChannel c) s = (s, [])) ∧
      perform (.safeChannel c) s =
        (s.setChannel c { y with fade := none, level := y.base, releasing := false, owner := none }, tests)

/-! ## Lamps and voices (files 07 and 08) -/

/-- R118 to R120, R126, R190: a frame event. Every fade is brought up to date, an ended one removed; the four frames carry
work levels under the house lights and levels otherwise, in 68 bytes with their sum check; the next is due 25 ms on; then
the channels whose release fade ended are given back. From its event on a link gives its frame byte by byte, a start bit low,
eight data bits from the least significant, two stop bits high, 250 bit times to the ms (log 42), and rests high otherwise.
That a fade of 0 ms begun in the ms of the frame ends at it is log 45's. -/
def Obligations.LampFrameIsSent : Prop :=
  ∀ (s : State) (d : Time), s.resetLow = false → s.lamp.nextFrame = some d → reached d s.showTime = true →
    let u := s.sendFrames
    let ended := fun c : Fin 128 => (s.channel c).releasing = true ∧
      ∃ f, (s.channel c).fade = some f ∧ f.duration ≤ (f.updated s.showTime).elapsed
    (∃ l : List (Fin 128), (∀ c, c ∈ l ↔ ended c) ∧ l.Pairwise (· < ·) ∧ Asks .lampFrame s u (l.map .giveUpChannel)) ∧
    ((∀ c, ¬ ended c) → Leaves .lampFrame s u) ∧ { u with lamp := s.lamp } = s ∧
    u.lamp.houseLights = s.lamp.houseLights ∧ u.lamp.nextFrame = some (d + 25) ∧
    (∀ c,
      ((s.channel c).fade = none → u.channel c = s.channel c) ∧
      ∀ f, (s.channel c).fade = some f →
        let e := match f.since with
          | none => f.elapsed
          | some t => f.elapsed + (s.showTime - t).toNat
        (f.duration ≤ e → u.channel c = { s.channel c with level := f.target, fade := none }) ∧
        (e < f.duration → u.channel c = { s.channel c with
          level := if f.start ≤ f.target then f.start + (f.target - f.start) * e / f.duration
                   else f.start - (f.start - f.target) * e / f.duration
          fade := some { f with elapsed := e, since := f.since.map fun _ => s.showTime } })) ∧
    ∀ link : Fin 4,
      let values := (fins 32).map fun j =>
        let c := u.channel ⟨32 * link.val + j.val, by omega⟩
        if s.lamp.houseLights then c.work else c.level
      u.lamp.frames.get link = [0xA5, BitVec.ofNat 8 link.val] ++
          (values ++ [(link.val + values.sum) % 65536]).flatMap (fun x => [BitVec.ofNat 8 x, BitVec.ofNat 8 (x / 256)]) ∧
        (u.lamp.frames.get link).length = 68 ∧
        (∀ b : Byte, serialByte b = [false, b.getLsbD 0, b.getLsbD 1, b.getLsbD 2, b.getLsbD 3, b.getLsbD 4, b.getLsbD 5,
          b.getLsbD 6, b.getLsbD 7, true, true]) ∧
        ∀ (ms : Nat) (bit : Fin 250), ms < 25 →
          let v := { u with showTime := d + BitVec.ofNat 32 ms }
          let place := 250 * ms + bit.val
          (∀ byte, (v.lamp.frames.get link)[place / 11]? = some byte →
            some (v.linkHigh link bit) = (serialByte byte)[place % 11]?) ∧
          (748 ≤ place → v.linkHigh link bit = true) ∧
          (s.lamp.nextFrame = none ∨ s.lamp.frames.get link = [] → s.linkHigh link bit = true)

/-- R130, R134 to R137, R139, R143, R144: a voice's reads. A group record gives the variant of the zone's language, or
variant 0, with its pin, or CLIP MISSING; a clip line joins the buffer and moves the state; a live read that fails ends the
clip; a discarded one changes nothing but the fault its error logs. A voice become IDLE gives up clip, pin and owner; the
slots that wait on it are woken, in rising number by the model's choice (log 36), its owner tests whether it has wound down,
and the show whether it is quiet. -/
def Obligations.VoicesReadClips : Prop :=
  ∀ (s : State) (f : InFlight) (v : Fin 8), s.resetLow = false → s.port = some f →
    let x := s.voice v
    let free := { s with port := none }
    let language := (s.zone v).language
    (f.purpose = .clipGroup v → ∀ data, data.length = f.length →
      (f.live = false → Leaves (.clipGroupArrives data) s free) ∧
      (f.live = true → x.state = .lookup →
        (∀ c, (variantOf data language = some c ∨ variantOf data language = none ∧ variantOf data 0 = some c) →
          let voice : Voice := { x with state := .fetching, clip := some c, fetchPos := 0, playPos := 0, buffer := [],
                                        starvedReported := false }
          (c.bank + 1048576 < c.address + c.length → Leaves (.clipGroupArrives data) s
            (((free.log .clipWrap [v.val, ownerCode x.owner, c.address, c.length]).setVoice v voice).setPin
              (State.voicePlace v) (some ⟨⟨c.address, c.bank + 1048576⟩,
                some ⟨c.bank, c.bank + (c.address + c.length - c.bank - 1048576)⟩⟩))) ∧
          (c.address + c.length ≤ c.bank + 1048576 → Leaves (.clipGroupArrives data) s
            ((free.setVoice v voice).setPin (State.voicePlace v) (some ⟨⟨c.address, c.address + c.length⟩, none⟩)))) ∧
        (variantOf data language = none → variantOf data 0 = none → Asks (.clipGroupArrives data) s
          (free.log .clipMissing [v.val, ownerCode x.owner, x.group.getD 0, language]) [.idleVoice v]))) ∧
    (f.purpose = .clipLine v → ∀ data, data.length = f.length →
      (f.live = false → Leaves (.clipLineArrives data) s free) ∧
      (f.live = true →
        let y := { x with buffer := x.buffer ++ data, fetchPos := x.fetchPos + data.length }
        let whole := y.fetchPos = x.playedLength
        let held := s.ctl.state = .hold
        let moves := fun z : Voice => Leaves (.clipLineArrives data) s (free.setVoice v z)
        (x.state = .fetching ∧ ¬ held ∨ x.state = .playing ∨ x.state = .starved → whole → moves { y with state := .draining }) ∧
        (x.state = .fetching → held → whole → moves { y with state := .paused, resumeTo := some .draining }) ∧
        (x.state = .fetching → ¬ whole → 2048 ≤ y.buffer.length →
          moves (if held then { y with state := .paused, resumeTo := some .playing } else { y with state := .playing })) ∧
        (x.state = .starved → ¬ whole → 512 ≤ y.buffer.length → moves { y with state := .playing }) ∧
        (x.state = .paused → whole → moves { y with resumeTo := some .draining }) ∧
        (x.state = .paused → ¬ whole → x.resumeTo = some .starved → 512 ≤ y.buffer.length →
          moves { y with resumeTo := some .playing }) ∧
        (x.state = .playing ∧ ¬ whole ∨ x.state = .fetching ∧ ¬ whole ∧ y.buffer.length < 2048 ∨
          x.state = .starved ∧ ¬ whole ∧ y.buffer.length < 512 ∨
          x.state = .paused ∧ ¬ whole ∧ (x.resumeTo ≠ some .starved ∨ y.buffer.length < 512) → moves y))) ∧
    (f.purpose = .clipLine v ∨ f.purpose = .clipGroup v →
      (f.live = false → Leaves .clipReadFailed s (free.log .clipReadFailed [v.val, f.addr])) ∧
      (f.live = true → Asks .clipReadFailed s
        (free.log .clipReadFailed [v.val, ownerCode x.owner, x.group.getD 0, f.addr]) [.idleVoice v])) ∧
    (x.state ≠ .idle →
      let e := perform (.idleVoice v) s
      e.1.voice v = ⟨.idle, none, none, none, 0, 0, [], false, none, none, none, x.output, false⟩ ∧
        e.1.pins.get (State.voicePlace v) = none ∧ e.1.arb.voice.get v = none ∧ (∀ w, w ≠ v → e.1.voice w = s.voice w) ∧
        e.2 = ((fins 8).filter fun j => match (s.slot j).wait with
            | some ⟨.voice w, _, _⟩ => w == v
            | _ => false).map Task.wakeSlot ++
          (match x.owner with
            | some k => [.testWound k]
            | none => []) ++ [.quietTest]) ∧
    (x.state = .idle → perform (.idleVoice v) s = (s, []))

/-- R132, R138, R140, R141: a sample instant, at most 24 in a ms, and the end of a cut. The voices are taken in rising number,
each with what its last sample brings about before the next (log 8). A voice's output is its sample at its gain, lowered by the
cut factor, in whole ms and with one truncation, while it is cut (log 8), not at all in the ms of the cut (log 51), and silent where the cut began in silence (log 39); a
voice that starves reports it once; a voice that has played its last sample becomes IDLE; a cut ends in IDLE or in the lookup of
the pending group. R141, R143, R145: a cut by the voice's state, and the resumption of the PAUSED voices. -/
def Obligations.SamplesAndCuts : Prop :=
  ∀ s : State, s.resetLow = false →
    (s.sampleCount < 24 →
      let u := { s with sampleCount := s.sampleCount + 1 }
      Asks .sampleInstant s u ((fins 8).map .sampleVoice) ∧
        ((∀ v, (s.voice v).state ≠ .draining) →
          Leaves .sampleInstant s ((fins 8).foldl (fun t v => (perform (.sampleVoice v) t).1) u))) ∧
    (∀ v,
      let x := s.voice v
      let e := perform (.sampleVoice v) s
      let y := e.1.voice v
      let sample : Int := (BitVec.ofNat 16 (byteAt x.buffer 0 + 256 * byteAt x.buffer 1)).toInt
      let gain : Int := match x.clip with
        | some c => c.gain
        | none => 0
      let played := { x with buffer := x.buffer.drop 2, playPos := x.playPos + 2 }
      let reports := x.state = .playing ∧ x.buffer.length < 2 ∧ x.starvedReported = false
      (∀ w, w ≠ v → e.1.voice w = s.voice w) ∧
      (¬ reports → { e.1 with voices := s.voices } = s) ∧
      (∀ c, reports → x.clip = some c → { e.1 with voices := s.voices } =
        (s.produce (.voiceStarved v x.owner c.address)).log .starved [v.val, ownerCode x.owner, c.address, x.playPos]) ∧
      e.2 = (if x.state = .draining ∧ x.playPos + 2 = x.playedLength then [.idleVoice v] else []) ∧
      (x.state = .idle ∨ x.state = .lookup ∨ x.state = .fetching ∨ x.state = .starved ∨ x.state = .paused →
        y = { x with output := 0 }) ∧
      (x.state = .playing ∧ 2 ≤ x.buffer.length ∨ x.state = .draining →
        y = { played with output := BitVec.ofInt 16 ((sample * gain).tdiv 100) }) ∧
      (x.state = .playing → x.buffer.length < 2 → y = { x with state := .starved, starvedReported := true, output := 0 }) ∧
      (x.state = .stopping → x.buffer.length < 2 ∨ x.muted = true → y = { x with output := 0 }) ∧
      ∀ d, x.state = .stopping → 2 ≤ x.buffer.length → x.muted = false → x.cutDeadline = some d →
        let left : Nat := 50 - (s.showTime - (d - 50)).toNat
        y = { played with output := BitVec.ofInt 16 ((sample * gain * left).tdiv 5000) }) ∧
    (∀ v d, (s.voice v).state = .stopping → (s.voice v).cutDeadline = some d → reached d s.showTime = true →
      ((s.voice v).pendingGroup = none → Asks (.cutDeadline v) s s [.idleVoice v]) ∧
      ∀ g, (s.voice v).pendingGroup = some g → Leaves (.cutDeadline v) s
        ((s.setPin (State.voicePlace v) none).setVoice v { s.voice v with
          state := .lookup, group := some g, pendingGroup := none, cutDeadline := none, buffer := [], clip := none,
          fetchPos := 0, playPos := 0, muted := false })) ∧
    (∀ v,
      let x := s.voice v
      let e := perform (.cutVoice v) s
      let t := s.dropVoiceRequest v
      (x.state = .idle → e = (s, [])) ∧
      (x.state = .lookup → e = (s, [.idleVoice v])) ∧
      (x.state = .fetching ∨ x.state = .playing ∨ x.state = .starved ∨ x.state = .draining ∨ x.state = .paused →
        e = (t.setVoice v { x with
          state := .stopping, cutDeadline := some (s.showTime + 50), pendingGroup := none, resumeTo := none,
          muted := x.state == .paused || x.state == .starved }, [])) ∧
      (x.state = .stopping → e = (s.setVoice v { x with pendingGroup := none }, [])) ∧
      t.arb.voice.get v = none ∧ (∀ w, w ≠ v → t.arb.voice.get w = s.arb.voice.get w) ∧
      t.arb.lookups = s.arb.lookups.filter (fun l => l.who != .clipGroup v) ∧
      (∀ f, s.port = some f → t.port =
        some { f with live := f.live && f.purpose != .clipLine v && f.purpose != .clipGroup v }) ∧
      { t with arb := s.arb, port := s.port } = s) ∧
    let e := perform .resumeVoices s
    { e.1 with voices := s.voices } = s ∧ e.2 = [] ∧
    ∀ v, e.1.voice v = match (s.voice v).state, (s.voice v).resumeTo with
      | .paused, some .playing => { s.voice v with state := .playing, resumeTo := none }
      | .paused, some .starved => { s.voice v with state := .starved, resumeTo := none }
      | .paused, some .draining => { s.voice v with state := .draining, resumeTo := none }
      | _, _ => s.voice v

/-! ## Axes (file 09) -/

/-- R153, R162: a home switch going active ends a homing at the home position, AXIS HOMED produced, in IDLE or on the
pending move, from speed 0 there, one to the home position arriving at once; on any other axis it changes its line alone. At
the homing limit (log 55 for one reached in the ms of a suspension) the axis is FAULTED, HOME NOT FOUND logged and an owner slot stopped; the axis is first brought to the
present instant (log 11). An axis gives up its owner: the slots that wait on it are woken, in rising number by the model's
choice (log 36), and the owner slot tests whether it has wound down; or it leaves the cue-homing set and asks for a scan.
R160, R161: a halt, and SAFE entry, by the axis's state, the axis brought to the present instant (log 11), and the removal of
HOLD at SAFE entry. That the halt of a MOVING axis at speed 0 ends in its event, by the end-of-halt task that follows, is
log 23's; that a halt a move timeout began keeps its outcome at SAFE entry is log 47's. -/
def Obligations.HomingEvents : Prop :=
  ∀ (s : State) (n : Fin 12), s.resetLow = false →
    let a := s.axis n
    let rec' := s.axisRecord n
    let at' := fun l : Level => { s with lines := { s.lines with home := put s.lines.home n l } }
    let home := if homeDirection rec' = .lower then 0 else 65535
    let found : Axis := { a with position := home, homed := true, elapsed := 0, origin := home, profileMs := 0,
                                 run := some (.restAt (.whole home)) }
    let told := (at' .active).produce (.axisHomed n a.owner home)
    (s.lines.home.get n = .inactive →
      (a.state ≠ .homing → Leaves (.homeSwitchActive n) s (at' .active)) ∧
      (a.state = .homing → a.pendingMove = none →
        exec (.homeSwitchActive n) s = .next (follow 1 (told.setAxis n { found with
          state := .idle, target := none, pendingMove := none, resumeTo := none, suspendedSince := none,
          lastResult := some .done, run := none, timedOut := false }, [.giveUpAxis n]))) ∧
      ∀ p, a.state = .homing → a.pendingMove = some p →
        ∃ b : Axis, exec (.homeSwitchActive n) s = .next (follow 1 (told.setAxis n b, [.arrive n])) ∧
          b = { found with
            state := .moving, target := some p, pendingMove := none, resumeTo := none, run := b.run,
            direction := b.direction } ∧
          (let q := Run.toward rec' p (.whole 0) (.whole home) (.whole 0) a.direction
          (b.run, b.direction) = (some q.1, q.2)) ∧
          (p = home → perform (.arrive n) (told.setAxis n b) = (told.setAxis n { b with
            state := .idle, target := none, elapsed := 0, suspendedSince := none, lastResult := some .done, run := none,
            timedOut := false }, [.giveUpAxis n]))) ∧
    (s.lines.home.get n = .active → Leaves (.homeSwitchInactive n) s (at' .inactive)) ∧
    (a.state = .homing → 4 * rec'.moveTimeLimit ≤ a.elapsed →
      let b := s.syncedAxis n
      let u := (s.setAxis n { b with
        state := .faulted, target := none, pendingMove := none, resumeTo := none, suspendedSince := none,
        lastResult := some .timeout, run := none, timedOut := false }).log .homeNotFound [n.val, a.owner.code]
      (∀ k, a.owner = .slot k → Asks (.homeNotFound n) s u [.stopSlot k .axisFault, .giveUpAxis n]) ∧
      ((∀ k, a.owner ≠ .slot k) → Asks (.homeNotFound n) s u [.giveUpAxis n])) ∧
    ( let u := s.setAxis n { a with owner := .nobody }
      let e := perform (.giveUpAxis n) s
      (a.owner = .nobody → e = (u, [.quietTest])) ∧
      (∀ k, a.owner = .slot k → e = (u, ((fins 8).filter fun j => match (s.slot j).wait with
          | some ⟨.axis m, _, _⟩ => m == n
          | _ => false).map Task.wakeSlot ++ [.testWound k, .quietTest])) ∧
      (a.owner = .cue → e.2 = [.askScan, .quietTest] ∧ { e.1 with zones := s.zones } = u ∧
        ∀ z : Fin 8, (e.1.zone z).cueHoming =
          if rec'.zone = z.val then (s.zone z).cueHoming.filter (· != n) else (s.zone z).cueHoming)) ∧
    ( let b := s.syncedAxis n
      let slowing : Axis := { b.slowed rec' with state := .halting, resumeTo := none, suspendedSince := none }
      let halt := perform (.haltAxis n) s
      let safe := perform (.safeAxis n) s
      (b.state = .moving ∨ b.state = .suspending →
        halt = (s.setAxis n slowing, [.endHalt n]) ∧ safe.1 = s.setAxis n { slowing with pendingMove := none }) ∧
      (b.state = .homing ∨ b.state = .suspended →
        halt = (s.setAxis n { b with
          state := .halting, pendingMove := none, resumeTo := none, suspendedSince := none, run := none }, [.endHalt n]) ∧
        safe.1 = s.setAxis n { b with
          state := if b.homed then .idle else .unhomed, target := none, pendingMove := none, resumeTo := none,
          suspendedSince := none, lastResult := some .halted, run := none, timedOut := false }) ∧
      (b.state = .halting → halt = (s.setAxis n { b with pendingMove := none }, [])) ∧
      (b.state = .unhomed ∨ b.state = .idle ∨ b.state = .faulted → halt = (s, [])) ∧
      (b.state = .halting ∨ b.state = .unhomed ∨ b.state = .idle ∨ b.state = .faulted →
        safe.1 = s.setAxis n { b with pendingMove := none }) ∧
      safe.2 = [.giveUpAxis n, .endHalt n] ∧ (perform .clearHold s).2 = [] ∧
      { (perform .clearHold s).1 with axes := s.axes } = s ∧
      (perform .clearHold s).1.axis n = { a with holdReason := false })

/-- R152, R155, R157, R160: how motions end. A MOVING axis at its target at speed 0 is IDLE with result DONE; at the move
time limit it halts, MOVE TIMEOUT logged and its owner slot stopped; a halt at speed 0 begins its pending move, or ends in
the timeout's fault, or HALTED; a SUSPENDING axis at speed 0 is SUSPENDED; at the suspend limit the motion is abandoned. The
axis is first brought to the present instant (log 11); that a pending move is begun even after a timeout is log 22's, and that
a limit reached in the ms of a suspension is due when the axis moves again log 55's. -/
def Obligations.MotionsEnd : Prop :=
  ∀ (s : State) (n : Fin 12), s.resetLow = false →
    let rec' := s.axisRecord n
    let a := s.syncedAxis n
    let resting := (a.speed rec').sign ≤ 0
    let home := if a.homed then AxisState.idle else .unhomed
    let ends := fun (b : Axis) (state : AxisState) (result : LastResult) =>
      { b with state := state, target := none, pendingMove := none, resumeTo := none, suspendedSince := none,
               lastResult := some result, run := none, timedOut := false }
    (a.state = .moving → a.target = some a.position → resting →
      exec (.arrival n) s = .next (follow 1 (s.setAxis n { ends a home .done with elapsed := 0 }, [.giveUpAxis n]))) ∧
    (a.state = .moving → rec'.moveTimeLimit ≤ a.elapsed →
      let b : Axis := { a.slowed rec' with state := .halting, resumeTo := none, suspendedSince := none, timedOut := true }
      let u := (s.setAxis n b).log .moveTimeout [n.val, a.owner.code, a.position, a.target.getD 0]
      b.target = a.target ∧
      (∀ k, a.owner = .slot k → Asks (.moveTimeout n) s u [.stopSlot k .axisFault, .endHalt n]) ∧
      ((∀ k, a.owner ≠ .slot k) → Asks (.moveTimeout n) s u [.endHalt n])) ∧
    (a.state = .halting → resting →
      (∀ p, a.pendingMove = some p → exec (.haltEnds n) s =
        .next (follow 1 (s.setAxis n (a.beginMove rec' a.owner p s.showTime), [.findHome n, .arrive n]))) ∧
      (a.pendingMove = none → a.timedOut = true →
        exec (.haltEnds n) s = .next (follow 1 (s.setAxis n (ends a .faulted .timeout), [.giveUpAxis n]))) ∧
      (a.pendingMove = none → a.timedOut = false →
        exec (.haltEnds n) s = .next (follow 1 (s.setAxis n (ends a home .halted), [.giveUpAxis n])))) ∧
    (a.state = .suspending → resting → Leaves (.suspendingAtRest n) s (s.setAxis n
      { a with state := .suspended, resumeTo := some (a.resumeTo.getD .moving), suspendedSince := some s.showTime,
               run := some (.restAt (a.place rec')) })) ∧
    (∀ t, (s.axis n).state = .suspended → (s.axis n).suspendedSince = some t →
      1000 * rec'.suspendLimit ≤ (s.axis n).suspendedTotal + (s.showTime - t).toNat →
      Asks (.suspendLimit n) s
        ((s.setAxis n (ends (s.axis n) home .abandoned)).log .suspendLimit
          [n.val, (s.axis n).owner.code, (s.axis n).position,
            (s.axis n).guardReason.toNat + 2 * (s.axis n).holdReason.toNat]) [.giveUpAxis n])

/-- R148, R149, R155, R156, R158, R159, R164, R181: a stall fails the axis from every state, its driver off and its homed flag
cleared, and logs STALL before the trigger and the owner's stop (that order is log 12's); so does a stall input active at a
take; a line change that is not acted on changes its level alone. The profile's instants pass to its next part, the position
brought to the whole steps of the part that ends (log 10), and a pulse, due while the position is behind those steps (logs 10
and 11), moves it by 1; the ramp's speeds, places, instants and turns are those of R149's arithmetic. A reason joins the set;
a MOVING axis slows in its direction of travel and is SUSPENDING, or SUSPENDED at once where it is at speed 0 (log 23), a HOMING
one is SUSPENDED, and position, target and owner stand. GUARD above half the maximum speed is a breach: it is decided by the
MOTION bank, its record produced, and its trigger acts last. A reason removed while another is left, or in a state that is not
suspended, changes the set alone; the last one removed resumes the motion, from speed 0 where it was SUSPENDED, the time
suspended added up; then it may arrive or find its switch in the same event. Those clauses take the axis first brought to the
present instant (log 11). -/
def Obligations.StallsAndProfile : Prop :=
  ∀ (s : State) (n : Fin 12), s.resetLow = false →
    let rec' := s.axisRecord n
    let at' := fun l : Level => { s with lines := { s.lines with stall := put s.lines.stall n l } }
    let a := s.syncedAxis n
    let deaf := rec'.isEnabled = false ∨ (s.axis n).state = .faulted ∧ (s.axis n).lastResult = some .stall
    (s.lines.stall.get n = .inactive →
      (deaf → Leaves (.stall n) s (at' .active)) ∧
      (¬ deaf →
        let failed : Axis := { a with
          state := .faulted, homed := false, driverEnabled := false, target := none, pendingMove := none, resumeTo := none,
          suspendedSince := none, lastResult := some .stall, run := none, timedOut := false }
        let u := ((at' .active).setAxis n failed).log .stall [n.val, a.owner.code, a.state.code, a.position]
        ((∀ b : Bank, (s.bank b).isSevere = false) → Asks (.stall n) s u [.stopStalled n]) ∧
        ((∃ b : Bank, (s.bank b).isSevere = true) → Asks (.stall n) s u [.safeTrigger, .stopStalled n]))) ∧
    (s.lines.stall.get n = .active → Leaves (.stallInputInactive n) s (at' .inactive)) ∧
    ( let found := perform (.stallAtTake n) s
      (deaf ∨ s.lines.stall.get n = .inactive → found = (s, [])) ∧
      (¬ deaf → s.lines.stall.get n = .active →
        let failed : Axis := { a with
          state := .faulted, homed := false, driverEnabled := false, target := none, pendingMove := none, resumeTo := none,
          suspendedSince := none, lastResult := some .stall, run := none, timedOut := false }
        found = ((s.setAxis n failed).log .stall [n.val, a.owner.code, a.state.code, a.position],
          s.trigger ++ [.stopStalled n]))) ∧
    (∀ k, (s.axis n).owner = .slot k →
      perform (.stopStalled n) s = (s, [.stopSlot k .axisFault, .giveUpAxis n])) ∧
    ((∀ k, (s.axis n).owner ≠ .slot k) → perform (.stopStalled n) s = (s, [.giveUpAxis n])) ∧
    (∀ r, (s.axis n).state = .moving → (s.axis n).run = some r →
      (r.ending rec' (s.axis n).direction (s.axis n).aim).atMost (.whole (s.axis n).profileMs) = true →
      let next := r.following rec' (s.axis n).direction (s.axis n).aim
      let u := s.setAxis n { s.axis n with position := (s.axis n).dueAt rec', run := some next.1, direction := next.2 }
      let top := reachesMaximum rec' r (s.axis n).direction (s.axis n).aim
      (r.kind = .speedingUp → top = true →
        Leaves (.maximumSpeedReached n) s u ∧ next.1.kind = .constant ∧ next.1.speed = .whole rec'.maxSpeed) ∧
      (r.kind = .constant ∨ r.kind = .speedingUp ∧ top = false →
        Leaves (.beginToSlow n) s u ∧ next.1.kind = .slowing ∧ next.2 = (s.axis n).direction) ∧
      (r.kind = .turning →
        Leaves (.directionReversal n) s u ∧ next.1.kind = .speedingUp ∧ next.2 = (s.axis n).direction.opposite)) ∧
    ((s.axis n).position ≠ (s.axis n).dueAt rec' →
      Leaves (.stepPulse n) s (s.setAxis n { s.axis n with
        position := match (s.axis n).direction with
          | .higher => ((s.axis n).position + 1) % 65536
          | .lower => (((s.axis n).position : Int) - 1) % 65536 |>.toNat })) ∧
    RampNumbers rec' ∧
    ( let stops : Option Run := match a.run with
        | none => none
        | some r => match r.kind with
          | .slowing | .turning | .stopping => some { r with kind := .stopping }
          | .speedingUp | .constant =>
            some (.slowFrom rec' .stopping a.direction (.whole a.profileMs) (a.place rec') (a.speed rec'))
          | .resting => some r
      a.slowed rec' = { a with run := stops }) ∧
    (∀ r : SuspendReason,
      let e := perform (.addReason n r) s
      let breach := r = .guard ∧ a.state = .moving ∧ ((a.speed rec').scale 2 1).atMost (.whole rec'.maxSpeed) = false
      let detail := [n.val, rec'.zone, a.owner.code, (a.speed rec').floor.toNat + 65536 * a.direction.code, a.position]
      let more : Axis := match r with
        | .guard => { a with guardReason := true }
        | .hold => { a with holdReason := true }
      let slower := a.slowed rec'
      let b := e.1.axis n
      (¬ breach → e = (s.setAxis n b, [])) ∧
      (breach → e = ((s.log .enclosureBreach detail).setAxis n b, s.trigger) ∧
        e.1.bank .motion = (s.decideFault .enclosureBreach detail).record) ∧
      (a.state = .moving →
        (0 < (slower.speed rec').sign → b = { more with
          state := .suspending, resumeTo := some .moving, run := slower.run }) ∧
        ((slower.speed rec').sign ≤ 0 → b = { more with
          state := .suspended, resumeTo := some .moving, suspendedSince := some s.showTime,
          run := some (.restAt (slower.place rec')) })) ∧
      (a.state = .homing → b = { more with
        state := .suspended, resumeTo := some .homing, suspendedSince := some s.showTime,
        run := some (.restAt (.whole a.position)) }) ∧
      (a.state ≠ .moving → a.state ≠ .homing → b = more)) ∧
    ∀ r : SuspendReason,
      let e := perform (.removeReason n r) s
      let b := e.1.axis n
      let less : Axis := match r with
        | .guard => { a with guardReason := false }
        | .hold => { a with holdReason := false }
      let other := match r with
        | .guard => a.holdReason
        | .hold => a.guardReason
      let spent := match a.suspendedSince with
        | none => 0
        | some t => (s.showTime - t).toNat
      let back := if a.state = .suspended then
          { less with suspendedSince := none, suspendedTotal := a.suspendedTotal + spent }
        else less
      e = (s.setAxis n b, [.arrive n, .findHome n]) ∧
      (other = true ∨ a.state ≠ .suspended ∧ a.state ≠ .suspending → b = less) ∧
      (other = false → a.state = .suspended ∨ a.state = .suspending →
        (a.resumeTo = none → b = back) ∧
        (a.resumeTo = some .homing → b = { back with
          state := .homing, resumeTo := none, direction := homeDirection rec' }) ∧
        ∀ p, a.resumeTo = some .moving → a.target = some p →
          let q := Run.toward rec' p (.whole a.profileMs) (a.place rec') (a.speed rec') a.direction
          b = { back with state := .moving, resumeTo := none, run := some q.1, direction := q.2 })

/-! ## Show Control (file 11) -/

/-- R176, R183, R185: the power warning logs its fault and, in RUN, enters HOLD; in HOLD, DRAINING and SAFE it starts a
snapshot; its end changes its line alone. A Fault Page line written leads to the next, a failed one ends the pass; a snapshot
line written leads to the next of its 17 writes, the last producing SNAPSHOT DONE, a failed one abandons it. What each of
these writes carries, from the grant on: a line of the page the banks and the sequence number as they stand (12.7); write 0
of a snapshot the invalid marker, writes 1 to 15 the lines 0 to 14 of the image, write 16 the valid marker (12.8). An answer that is
disregarded logs its error alone. R184: the image of a snapshot that starts, 15 lines laid out as 12.8 says, an older one being
abandoned. That the axes take HOLD in rising number is the model's choice (log 35); the scene byte of a FREE slot's entry is any byte (log 15), the count of no loop record 0 (log 41), and a position
that of the present instant (log 11). -/
def Obligations.PowerPageAndSnapshot : Prop :=
  ∀ s : State, s.resetLow = false →
    let at' := fun l : Level => { s with lines := { s.lines with power := l } }
    (s.lines.power = .inactive →
      let u := (at' .active).log .powerWarning []
      (s.ctl.state = .start ∨ s.ctl.state = .unconfigured → Leaves .powerWarning s u) ∧
      (s.ctl.state = .hold ∨ s.ctl.state = .draining ∨ s.ctl.state = .safe →
        Asks .powerWarning s u [.startSnapshot .powerWarning] ∧
          Leaves .powerWarning s (u.startSnapshot .powerWarning)) ∧
      (s.ctl.state = .run → Asks .powerWarning s ((u.changeShow .hold).holdSlots.pauseVoices)
        ((s.enabledAxes.map fun n => .addReason n .hold) ++ [.startSnapshot .powerWarning]))) ∧
    (s.lines.power = .active → Leaves .powerWarningInactive s (at' .inactive)) ∧
    (∀ reason,
      let u := (perform (.startSnapshot reason) s).1
      (perform (.startSnapshot reason) s).2 = [] ∧
      { u with ctl := s.ctl, arb := s.arb, port := s.port, freeDraws := s.freeDraws } = s ∧
      Writer.snapshot ∉ u.arb.writebacks ∧ u.carriesLive Purpose.isSnapshot = false ∧
      ∃ image, u.ctl = { s.ctl with snapshot := some ⟨image, reason, s.dir.sequence, 0⟩ } ∧ image.length = 960 ∧
        slice image 0 16 = [0x49, 0x56, 0x53, 0x53] ++ bytes32 s.dir.sequence.toNat ++ [byteOf reason.code, 0, 0, 0] ++
          bytes32 s.showTime.toNat ∧
        (∀ k : Fin 8, let x := s.slot k
          ∃ scene, slice image (0x040 + 16 * k.val) 16 = [byteOf x.state.code, scene] ++ bytes16 x.next ++ bytes32 x.clock ++
              (match x.loop with
               | none => [0xFF, 0xFF, 0, 0]
               | some l => bytes16 l.index ++ bytes16 l.remaining) ++ [0, 0, 0, 0] ∧
            ∀ h, x.holding = some h → scene = byteOf h.scene.val) ∧
        (∀ c : Fin 128, slice image (0x0C0 + 2 * c.val) 2 = bytes16 (s.channel c).level) ∧
        (∀ n : Fin 12, slice image (0x2C0 + 4 * n.val) 4 =
          bytes16 (s.syncedAxis n).position ++ [if (s.axis n).homed then 1 else 0, 0]) ∧
        ∀ z : Fin 8, slice image (0x2F0 + z.val) 1 = [byteOf (s.zone z).language]) ∧
    (∀ d l, s.fault.writer = some l →
      let record := fun b : Bank =>
        let r := s.bank b
        padTo 32 ([byteOf r.valid.toNat,
          match r.severity with
          | some x => byteOf x.code
          | none => 0,
          match r.code with
          | some c => byteOf c.code
          | none => 0,
          byteOf (r.overflow.toNat + 2 * r.showStateLost.toNat)] ++ bytes32 r.time.toNat ++
            r.detail.flatMap fun w => bytes32 w.toNat)
      s.writeOf d .page = (.page, d.faultPage + 64 * l,
        match l with
        | 0 => record .link ++ record .showBank
        | 1 => record .scene ++ record .voice
        | 2 => record .motion ++ bytes32 s.dir.sequence.toNat ++ List.replicate 28 0
        | _ => List.replicate 64 0)) ∧
    (∀ d w, s.ctl.snapshot = some w →
      (w.due = 0 → s.writeOf d .snapshot = (.snapshot, d.snapshotArea + 0x3C0, List.replicate 64 0)) ∧
      (1 ≤ w.due → w.due ≤ 15 → w.image.length = 960 → s.writeOf d .snapshot =
        (.snapshot, d.snapshotArea + 64 * (w.due - 1), slice w.image (64 * (w.due - 1)) 64)) ∧
      (16 ≤ w.due → s.writeOf d .snapshot = (.snapshot, d.snapshotArea + 0x3C0,
        bytes32 0x3C5AA5C3 ++ bytes32 w.sequence.toNat ++ List.replicate 56 0))) ∧
    ∀ f, s.port = some f →
      let free := { s with port := none }
      (f.purpose = .page →
        (f.live = false → Asks .faultPageLineDone s free []) ∧
        (∀ l, f.live = true → s.fault.writer = some l → Asks .faultPageLineDone s
          { free with fault := { s.fault with writer := if l < 3 then some (l + 1) else none } } []) ∧
        let logged := free.log .faultPageWriteFailed []
        Asks .faultPageWriteFailed s { free with
          report := logged.report
          fault := { banks := logged.fault.banks, dirty := s.fault.dirty,
                     writer := if f.live then none else s.fault.writer } } []) ∧
      (f.purpose = .snapshot →
        (f.live = false → Leaves .snapshotLineDone s free ∧ Leaves .snapshotFailed s (free.log .snapshotFailed [])) ∧
        (f.live = true → Leaves .snapshotFailed s
          (({ free with ctl := { s.ctl with snapshot := none } } : State).log .snapshotFailed [])) ∧
        ∀ w, f.live = true → s.ctl.snapshot = some w →
          (w.due < 16 → Leaves .snapshotLineDone s
            { free with ctl := { s.ctl with snapshot := some { w with due := w.due + 1 } } }) ∧
          (16 ≤ w.due → Leaves .snapshotLineDone s
            (({ free with ctl := { s.ctl with snapshot := none } } : State).produce (.snapshotDone w.reason w.sequence))))

/-- R186, R187, R115, R128: RESTORE SHOW outside RUN is refused WRONG STATE, with a slot, a voice, a request, the snapshot
writer or another restore busy it is refused BUSY, else its read begins. The marker must be valid and of the directory's
sequence number; lines 0 to 14 follow; at the last the show is judged once more, and the saved slots whose scenes are enabled
and whose zones are free are started, in rising number, LOADING with the saved next step, clock and loop record; a channel
whose zone a restored slot owns is that slot's at its saved level, any other fades from it to its base over 1,000 ms; an
enabled zone takes its saved language, or its default. A saved entry that is invalid faults its script afterwards, its one
detail the saved index (log 16); the ends of load and the faults of several slots follow in rising slot number (log 48). A
saved level above 1,000 is taken as read (log 46), and so is a saved loop record's count of 65,535 (log 54). A failed read ends the read as FAILED. -/
def Obligations.RestoreIsRead : Prop :=
  ∀ s : State,
    let ready := (∀ k, (s.slot k).state = .free) ∧ (∀ v, (s.voice v).state = .idle) ∧ s.req.queue = []
    (∀ c rest, s.headIs .restoreShow c rest →
      (s.ctl.state ≠ .run → Leaves .restoreShow s (s.answered c rest (.refused .wrongState))) ∧
      (s.ctl.state = .run → ¬ (ready ∧ s.ctl.snapshot = none ∧ s.ctl.restore = none) →
        Leaves .restoreShow s (s.answered c rest (.refused .busy))) ∧
      (s.ctl.state = .run → ready → s.ctl.snapshot = none → s.ctl.restore = none → Leaves .restoreShow s
        { s.answered c rest .accepted with ctl := { s.ctl with restore := some ⟨none, []⟩ } })) ∧
    (∀ f r, s.resetLow = false → s.port = some f → f.purpose = .restore → s.ctl.restore = some r →
      let free := { s with port := none }
      let ended := { free with ctl := { s.ctl with restore := none } }
      (f.live = false → Leaves .restoreReadFailed s (free.log .memoryErrorInternal [f.addr, 3])) ∧
      (f.live = true → Leaves .restoreReadFailed s
        (({ free.log .memoryErrorInternal [f.addr, 3] with ctl := { s.ctl with restore := none } } : State).produce
          (.restoreDone .failed 0))) ∧
      ∀ data, data.length = f.length →
        let arrives := Instr.restoreLineArrives data
        (f.live = false → Leaves arrives s free) ∧
        (f.live = true → r.line = none →
          let valid := word32At data 0 = 0x3C5AA5C3 ∧ word32At data 4 = s.dir.sequence.toNat
          (valid → Leaves arrives s { free with ctl := { s.ctl with restore := some ⟨some 0, []⟩ } }) ∧
          (¬ valid → Leaves arrives s (ended.produce (.restoreDone .invalid 0)))) ∧
        (∀ n, f.live = true → r.line = some n → n < 14 → Leaves arrives s
          { free with ctl := { s.ctl with restore := some ⟨some (n + 1), r.read ++ data⟩ } }) ∧
        ∀ n, f.live = true → r.line = some n → 14 ≤ n →
          (¬ ready → Leaves arrives s (ended.produce (.restoreDone .busy 0))) ∧
          (ready →
            let lines := r.read ++ data
            let x := (fins 8).foldl (State.restoreOne lines) ⟨ended, []⟩
            let u := (x.state.restoreLevels lines x.slots).restoreLanguages lines
            let faulty := fun k : Fin 8 => (u.slotScene k).steps < (savedSlot lines k).next ∨ 3600000 < (savedSlot lines k).clock
            Asks arrives s (u.produce (.restoreDone .restored x.slots.length)) (x.slots.map (u.restoredTask lines)) ∧
            (∀ k, (faulty k → u.restoredTask lines k = .faultRestored k) ∧
              (¬ faulty k → u.restoredTask lines k = .endLoad k none)) ∧
            (∀ c,
              let y := s.channel c
              let level := word16At lines (0x0C0 + 2 * c.val)
              let owned := fun k : Fin 8 => k ∈ x.slots ∧ ∃ z, y.zone = some z ∧ (x.state.zone z).owner = some k
              (∀ k, owned k → u.channel c = { y with owner := some k, level := level, fade := none, releasing := false }) ∧
              ((∀ k, ¬ owned k) → u.channel c = { y with
                level := level, fade := some ⟨level, y.base, 1000, 0, some s.showTime⟩ })) ∧
            (∀ z,
              let saved := byteAt lines (0x2F0 + z.val)
              u.zone z = if (s.zoneRecord z).isEnabled then
                  { x.state.zone z with
                    language := if saved < s.languageCount then saved else (s.zoneRecord z).defaultLanguage }
                else x.state.zone z) ∧
            { u with lamp := s.lamp, zones := x.state.zones } = { x.state with lamp := s.lamp } ∧
            u.lamp.houseLights = s.lamp.houseLights ∧
            (x.slots = [] → Leaves arrives s (u.produce (.restoreDone .restored 0))) ∧
            u.axes = s.axes ∧ u.voices = s.voices ∧ u.report = s.report ∧ u.req = s.req)) ∧
    (∀ k, perform (.faultRestored k) s = (s.log .scriptFault [(s.slot k).next], [.stopSlot k .scriptFault])) ∧
    ∀ (lines : List Byte) (before : List (Fin 8)) (k : Fin 8),
      let saved := savedSlot lines k
      let e := State.restoreOne lines ⟨s, before⟩ k
      let may := fun n : Fin 32 => saved.scene = n.val ∧ 1 ≤ saved.state ∧ saved.state ≤ 3 ∧
        (s.sceneRecord n).isEnabled = true ∧ ∀ z ∈ (s.sceneRecord n).zones, (s.zone z).closed = false ∧
          (s.zone z).owner = none ∧ (s.zone z).reservation = none ∧ (s.zone z).cueHoming = []
      ((∀ n, ¬ may n) → e.state = s ∧ e.slots = before) ∧
      ∀ n, may n → e.slots = before ++ [k] ∧
        let r := s.sceneRecord n
        e.state = { (s.claim k n) with
          slots := put s.slots k { Slot.reset with
            state := .loading, holding := some ⟨n, r.sceneClass, s.showTime⟩, next := saved.next, fetch := saved.next,
            loop := saved.loop, savedClock := some saved.clock }
          pins := put s.pins (State.slotPlace k) (some ⟨⟨r.script, r.script + 16 * r.steps⟩, none⟩) }

end Statements
end

