-- ==== Sys2Proof/Laws/Exact.lean ====
section
/-! SUPPORT. The exact numbers of the motion profile, read as fractions: each operation on two fractions, the sign, the
comparison, the whole part, the square root with its comparison to a whole number, and the profile's distances and times. -/

namespace Sys2Proof.Machine

namespace Exact

theorem is_unique {x : Exact} {p q : ℚ} (hp : x.Is p) (hq : x.Is q) : p = q := by
  obtain ⟨a, b, rfl, _, rfl⟩ := hp
  obtain ⟨c, d, e, _, rfl⟩ := hq
  injection e with e1 e2
  rw [e1, e2]

theorem is_whole (n : Int) : (whole n).Is n := ⟨n, 1, rfl, one_pos, by simp⟩

theorem is_reduced (n : Int) {d : Nat} (h : 0 < d) : (reduced n d).Is (n / d) := by
  unfold reduced
  by_cases g : Nat.gcd n.natAbs d ≤ 1
  · simp only [g, if_true]; exact ⟨n, d, rfl, h, rfl⟩
  · simp only [g, if_false]
    have hd : Nat.gcd n.natAbs d ∣ d := Nat.gcd_dvd_right _ _
    have hn : (Nat.gcd n.natAbs d : Int) ∣ n := Int.natCast_dvd.mpr (Nat.gcd_dvd_left _ _)
    have g0 : 0 < Nat.gcd n.natAbs d := by omega
    refine ⟨_, _, rfl, Nat.div_pos (Nat.le_of_dvd h hd) g0, ?_⟩
    rw [Int.cast_div hn (by positivity), Nat.cast_div hd (by positivity)]
    have : ((Nat.gcd n.natAbs d : Int) : ℚ) ≠ 0 := by positivity
    push_cast
    field_simp

theorem is_plus {x y : Exact} {p q : ℚ} (hx : x.Is p) (hy : y.Is q) : (x.plus y).Is (p + q) := by
  obtain ⟨a, b, rfl, hb, rfl⟩ := hx
  obtain ⟨c, d, rfl, hd, rfl⟩ := hy
  have h := is_reduced (a * d + c * b) (Nat.mul_pos hb hd)
  have e : ((a : ℚ) / b + c / d) = ((a * d + c * b : Int) : ℚ) / ((b * d : Nat) : ℚ) := by
    push_cast; field_simp
  rw [e]; exact h

theorem is_times {x y : Exact} {p q : ℚ} (hx : x.Is p) (hy : y.Is q) : (x.times y).Is (p * q) := by
  obtain ⟨a, b, rfl, hb, rfl⟩ := hx
  obtain ⟨c, d, rfl, hd, rfl⟩ := hy
  have h := is_reduced (a * c) (Nat.mul_pos hb hd)
  have e : ((a : ℚ) / b * (c / d)) = ((a * c : Int) : ℚ) / ((b * d : Nat) : ℚ) := by
    push_cast; field_simp
  rw [e]; exact h

theorem is_minus {x y : Exact} {p q : ℚ} (hx : x.Is p) (hy : y.Is q) : (x.minus y).Is (p - q) := by
  have h := is_plus hx (is_times (is_whole (-1)) hy)
  have e : p + ((-1 : Int) : ℚ) * q = p - q := by push_cast; ring
  rwa [e] at h

theorem is_scale {x : Exact} {p : ℚ} (hx : x.Is p) (n : Int) {d : Nat} (h : 0 < d) : (x.scale n d).Is (p * n / d) := by
  have k := is_times hx (is_reduced n h)
  rwa [← mul_div_assoc] at k

theorem is_square {x : Exact} {p : ℚ} (hx : x.Is p) : x.square.Is (p ^ 2) := by
  have h := is_times hx hx
  rwa [← sq] at h

theorem sign_neg {x : Exact} {p : ℚ} (hx : x.Is p) : x.sign < 0 ↔ p < 0 := by
  obtain ⟨a, b, rfl, hb, rfl⟩ := hx
  have : (0 : ℚ) < b := by exact_mod_cast hb
  rw [div_lt_iff₀ this, zero_mul]
  simp only [sign, Int.sign_neg_iff, Int.cast_lt_zero]

theorem sign_pos {x : Exact} {p : ℚ} (hx : x.Is p) : 0 < x.sign ↔ 0 < p := by
  obtain ⟨a, b, rfl, hb, rfl⟩ := hx
  have : (0 : ℚ) < b := by exact_mod_cast hb
  rw [lt_div_iff₀ this, zero_mul]
  simp only [sign, Int.sign_pos_iff, Int.cast_pos]

theorem sign_zero {x : Exact} {p : ℚ} (hx : x.Is p) : x.sign = 0 ↔ p = 0 := by
  have := sign_neg hx
  have := sign_pos hx
  constructor
  · intro h; rcases lt_trichotomy p 0 with k | k | k <;> simp_all
  · intro h; subst h; simp_all; omega

theorem atMost_iff {x y : Exact} {p q : ℚ} (hx : x.Is p) (hy : y.Is q) : x.atMost y = true ↔ p ≤ q := by
  have := sign_neg (is_minus hy hx)
  unfold atMost
  rw [decide_eq_true_iff, ← not_lt, this, not_lt, sub_nonneg]

theorem floor_is {x : Exact} {p : ℚ} (hx : x.Is p) : x.floor = ⌊p⌋ := by
  obtain ⟨a, b, rfl, hb, rfl⟩ := hx
  exact (Rat.floor_intCast_div_natCast a b).symm

theorem trunc_is {x : Exact} {p : ℚ} (hx : x.Is p) : x.trunc = if p < 0 then -⌊-p⌋ else ⌊p⌋ := by
  have zero : (whole 0).Is 0 := by simpa using is_whole 0
  unfold trunc
  by_cases c : p < 0
  · rw [if_pos ((sign_neg hx).mpr c), if_pos c, floor_is (is_minus zero hx), zero_sub]
  · rw [if_neg ((sign_neg hx).not.mpr c), if_neg c, floor_is hx]

/-! ## Square roots -/

theorem floorRootFrom_spec (n : Nat) : ∀ k r, r * r ≤ n → n < (r + 2 ^ k) * (r + 2 ^ k) →
    floorRootFrom k n r * floorRootFrom k n r ≤ n ∧ n < (floorRootFrom k n r + 1) * (floorRootFrom k n r + 1)
  | 0, r, h1, h2 => by simpa [floorRootFrom] using ⟨h1, h2⟩
  | k + 1, r, h1, h2 => by
    have e : r + 2 ^ k + 2 ^ k = r + 2 ^ (k + 1) := by rw [pow_succ]; omega
    unfold floorRootFrom
    by_cases c : (r + 2 ^ k) * (r + 2 ^ k) ≤ n
    · simp only [c, if_true]; exact floorRootFrom_spec n k _ c (by rwa [e])
    · simp only [c, if_false]; exact floorRootFrom_spec n k r h1 (by omega)

/-- `floorRoot` is the square root, rounded down. -/
theorem floorRoot_spec (n : Nat) : floorRoot n * floorRoot n ≤ n ∧ n < (floorRoot n + 1) * (floorRoot n + 1) := by
  refine floorRootFrom_spec n _ 0 (by simp) ?_
  have h : n < 2 ^ (n.log2 + 1) := Nat.lt_log2_self
  have : 2 ^ (n.log2 + 1) ≤ 2 ^ (n.log2 / 2 + 1 + (n.log2 / 2 + 1)) := Nat.pow_le_pow_right (by norm_num) (by omega)
  have e := pow_add 2 (n.log2 / 2 + 1) (n.log2 / 2 + 1)
  simp only [Nat.zero_add]; omega

theorem le_floorRoot {r n : Nat} (h : r * r ≤ n) : r ≤ floorRoot n := by
  by_contra c
  have := (floorRoot_spec n).2
  have : (floorRoot n + 1) * (floorRoot n + 1) ≤ r * r := Nat.mul_le_mul (by omega) (by omega)
  omega

theorem floorRoot_lt {r n : Nat} (h : n < r * r) : floorRoot n < r := by
  by_contra c
  have := (floorRoot_spec n).1
  have : r * r ≤ floorRoot n * floorRoot n := Nat.mul_le_mul (by omega) (by omega)
  omega

/-- A fraction that is a whole number is kept as one. -/
theorem reduced_of_whole {n k : Int} {d : Nat} (hd : 0 < d) (h : n = k * d) : reduced n d = .frac k 1 := by
  subst h
  have g : Nat.gcd (k * d).natAbs d = d := by
    rw [Int.natAbs_mul, Int.natAbs_natCast]; exact Nat.gcd_eq_right ⟨_, Nat.mul_comm _ _⟩
  unfold reduced
  by_cases c : d ≤ 1
  · have : d = 1 := by omega
    subst this; simp
  · simp only [g, c, if_false]
    rw [Int.mul_ediv_cancel _ (by omega), Nat.div_self hd]

theorem reduced_one (n : Int) : reduced n 1 = .frac n 1 := reduced_of_whole one_pos (by simp)

/-- Half of a whole number in lowest terms. -/
theorem reduced_two (n : Int) : reduced n 2 = if n % 2 = 0 then .frac (n / 2) 1 else .frac n 2 := by
  by_cases c : n % 2 = 0
  · simp only [c, if_true]; exact reduced_of_whole two_pos (by omega)
  · simp only [c, if_false]
    have h : n.natAbs % 2 = 1 := by omega
    have g : Nat.gcd n.natAbs 2 = 1 := by rw [Nat.gcd_comm, Nat.gcd_rec, h]; rfl
    simp [reduced, g]

/-- The enclosure of a root less a whole number, 64 bits fine, for a fraction whose denominator is 1 or 2. -/
theorem enclosure_root_minus (m n b : Nat) (hb : b = 1 ∨ b = 2) :
    enclosure 64 (.add (.root (.frac n b)) (.frac (-m) 1)) =
      ((floorRoot (n * 2 ^ 64 / b * 2 ^ 64) : Int) - (m * 2 ^ 64 : Nat),
        (floorRoot ((n * 2 ^ 64 + b - 1) / b * 2 ^ 64) + 1 : Int) - (m * 2 ^ 64 : Nat)) := by
  have e1 : ((n : Int) * 2 ^ 64 / b).toNat = n * 2 ^ 64 / b := by
    rw [show (n : Int) * 2 ^ 64 / b = ((n * 2 ^ 64 / b : Nat) : Int) by push_cast; rfl, Int.toNat_natCast]
  have e2 : (-((-((n : Int) * 2 ^ 64)) / b)).toNat = (n * 2 ^ 64 + b - 1) / b := by
    rw [show (n : Int) * 2 ^ 64 = ((n * 2 ^ 64 : Nat) : Int) by push_cast; rfl]
    generalize n * 2 ^ 64 = x
    rcases hb with rfl | rfl <;> omega
  simp only [enclosure, Nat.cast_one, Int.ediv_one, neg_mul, neg_neg, Int.sub_eq_add_neg, e1, e2]
  push_cast
  rfl

/-- Which side of a whole number a root lies on, for a fraction whose denominator is 1 or 2. -/
theorem sign_root_minus {m n b : Nat} (hm' : m ≤ 65535) (hb : b = 1 ∨ b = 2) :
    (m * m * b < n → sign (.add (.root (.frac n b)) (.frac (-m) 1)) = 1) ∧
      (n < m * m * b → sign (.add (.root (.frac n b)) (.frac (-m) 1)) = -1) := by
  simp only [sign, signIn, precisions, enclosure_root_minus m n b hb]
  have hS : 65536 * 65536 ≤ 2 ^ 64 := by norm_num
  generalize 2 ^ 64 = S at hS
  constructor
  · intro h
    have k : m * S + 1 ≤ floorRoot (n * S / b * S) := by
      refine le_floorRoot ?_
      have h2 : (2 * (m * m) + 1) * S ≤ 2 * (n * S / b) + 1 := by
        have : (2 * (m * m) + 1) * S * b ≤ 2 * (n * S) := by
          rcases hb with rfl | rfl <;> nlinarith
        rcases hb with rfl | rfl <;> omega
      nlinarith
    rw [if_pos (by omega)]
  · intro h
    have h2 : 2 * ((n * S + b - 1) / b) + S ≤ 2 * (m * m) * S + 1 := by
      have : 2 * (n * S) + S * b ≤ 2 * (m * m) * S * b := by
        rcases hb with rfl | rfl <;> nlinarith
      rcases hb with rfl | rfl <;> omega
    have h1 : n * S / b ≤ (n * S + b - 1) / b := Nat.div_le_div_right (by omega)
    have m1 : 1 ≤ m := by
      rcases Nat.eq_zero_or_pos m with rfl | h'
      · simp at h
      · exact h'
    have k1 : floorRoot (n * S / b * S) < m * S := floorRoot_lt (by nlinarith)
    have k2 : floorRoot ((n * S + b - 1) / b * S) < m * S - 1 := by
      refine floorRoot_lt ?_
      obtain ⟨x, hx⟩ : ∃ x, m * S = x + 1 := ⟨m * S - 1, by have := Nat.mul_pos m1 (show 0 < S by omega); omega⟩
      rw [hx, Nat.add_sub_cancel]
      have : x ≤ 65535 * S := by nlinarith
      nlinarith
    rw [if_neg (by omega), if_pos (by omega)]

/-- A whole number compared with the root of a fraction in lowest terms whose denominator is 1 or 2. -/
theorem whole_atMost_squareRoot {m : Nat} {a : Int} {b : Nat} (hm : 1 ≤ m) (hm' : m ≤ 65535) (hb : b = 1 ∨ b = 2 ∧ a % 2 = 1) :
    (whole m).atMost (squareRoot (.frac a b)) = true ↔ (m : Int) * m * b ≤ a := by
  have b0 : 1 ≤ b := by omega
  have mm : 1 ≤ (m : Int) * m * b := by
    have : 1 ≤ m * m * b := Nat.mul_pos (Nat.mul_pos hm hm) b0
    exact_mod_cast this
  simp only [squareRoot]
  by_cases ha : a ≤ 0
  · simp only [ha, if_true]
    rw [atMost_iff (is_whole m) (is_whole 0)]
    constructor
    · intro h; norm_cast at h; omega
    · intro h; omega
  simp only [ha, if_false]
  by_cases hq : floorRoot a.toNat * floorRoot a.toNat = a.toNat ∧ floorRoot b * floorRoot b = b
  · rw [if_pos hq]
    have hb1 : b = 1 := by
      rcases hb with h | ⟨h, _⟩
      · exact h
      · subst h; exact absurd hq.2 (by decide)
    subst hb1
    have e : floorRoot 1 = 1 := by decide
    rw [e, reduced_one]
    rw [show Exact.frac (floorRoot a.toNat : Int) 1 = whole (floorRoot a.toNat) from rfl, atMost_iff (is_whole _) (is_whole _)]
    have hc : ((m : Int) : ℚ) ≤ ((floorRoot a.toNat : Int) : ℚ) ↔ m ≤ floorRoot a.toNat := by norm_cast
    rw [hc]
    have ha' : a = (a.toNat : Int) := by omega
    generalize floorRoot a.toNat = r at hq ⊢
    rw [ha', ← hq.1]
    push_cast
    constructor
    · intro h
      have := Nat.mul_le_mul h h
      rw [mul_one]; exact_mod_cast this
    · intro h
      rw [mul_one] at h
      have h : m * m ≤ r * r := by exact_mod_cast h
      exact Nat.mul_self_le_mul_self_iff.mp h
  · rw [if_neg hq]
    have e : minus (.root (.frac a b)) (whole m) = .add (.root (.frac a b)) (.frac (-m) 1) := by
      have n0 : Exact.frac (-(m : Int)) 1 ≠ whole 0 := by
        intro h; injection h; omega
      simp only [minus, times, whole, reduced_one, plus, Nat.mul_one]
      simp only [neg_mul, one_mul]
      simp only [whole] at n0
      simp [n0]
    obtain ⟨n, rfl⟩ := Int.eq_ofNat_of_zero_le (show 0 ≤ a by omega)
    have hs := sign_root_minus (m := m) (n := n) (b := b) hm' (by omega)
    simp only [atMost, e, decide_eq_true_iff]
    have hc : (m : Int) * m * b ≤ n ↔ m * m * b ≤ n := by norm_cast
    rw [hc]
    simp only [Int.toNat_natCast] at hq
    constructor
    · intro h
      by_contra c
      rw [hs.2 (by omega)] at h; omega
    · intro h
      have : m * m * b ≠ n := by
        intro c
        rcases hb with hb | ⟨hb, h2⟩
        · subst hb
          refine hq ⟨?_, by decide⟩
          rw [← c, mul_one]
          have h1 : m ≤ floorRoot (m * m) := le_floorRoot le_rfl
          have h2 : floorRoot (m * m) < m + 1 := floorRoot_lt (Nat.mul_self_lt_mul_self_iff.mpr (by omega))
          have h3 : floorRoot (m * m) = m := by omega
          rw [h3]
        · subst hb; omega
      rw [hs.1 (by omega)]; omega

end Exact

/-! ## The profile's distances and times -/

theorem side_is (dir : Direction) : (Exact.whole dir.sign).Is dir.side := by
  have h := Exact.is_whole dir.sign
  cases dir <;> simpa [Direction.sign, Direction.side] using h

theorem side_mul_side (dir : Direction) : dir.side * dir.side = 1 := by cases dir <;> simp [Direction.side]

theorem alongside_is (dir : Direction) {x y : Exact} {p q : ℚ} (hx : x.Is p) (hy : y.Is q) :
    (alongside dir x y).Is (p + dir.side * q) := by
  rw [mul_comm]
  exact Exact.is_plus hx (Exact.is_times hy (side_is dir))

theorem distanceLeft_is (dir : Direction) {x : Exact} {p : ℚ} (h : x.Is p) (target : Nat) :
    (distanceLeft dir x target).Is (dir.side * (target - p)) := by
  rw [mul_comm]
  exact Exact.is_times (Exact.is_minus (Exact.is_whole target) h) (side_is dir)

/-- A speed is slowed to 0 over v² ÷ (2 × acceleration) steps (R149). -/
theorem stoppingDistance_is {rec : AxisRecord} (ha : 0 < rec.acceleration) {x : Exact} {v : ℚ} (h : x.Is v) :
    (stoppingDistance rec x).Is (v ^ 2 / (2 * rec.acceleration)) := by
  have k := Exact.is_scale (Exact.is_square h) 1 (d := 2 * rec.acceleration) (by omega)
  push_cast at k
  rwa [mul_one] at k

theorem stoppingTime_is {rec : AxisRecord} (ha : 0 < rec.acceleration) {x : Exact} {v : ℚ} (h : x.Is v) :
    (stoppingTime rec x).Is (1000 * v / rec.acceleration) := by
  rw [mul_comm]
  exact Exact.is_scale h 1000 ha

end Sys2Proof.Machine
end

