-- ==== Sys2Proof/WellFormed.lean ====
section
/-! DEFINITION. Which commands are ones the outside can send: the counts of bytes the rules give a transaction and an
answer. Everything else an operand could get wrong is ruled out by its type. -/

namespace Sys2Proof

/-- Does a command carry as many bytes as its rule says: a WRITE's data one byte for each byte of length (01, 1.1), a
withdrawn write fewer (R2), a line read 64, a read of part of a line 1 to 64 (00, Terms)? -/
def Instr.WellFormed (i : Instr) : Bool :=
  match i with
  | .forwardedWriteArrives _ length _ data => data.length == length
  | .withdrawnWrite _ length _ data => data.length < length || length == 0
  | .forwardedData data => 1 ≤ data.length && data.length ≤ 64
  | .directoryLineArrives data => data.length == 64
  | .cueLineArrives data => data.length == 64
  | .scriptLineArrives data => data.length == 64
  | .clipGroupArrives data => data.length == 64
  | .clipLineArrives data => 1 ≤ data.length && data.length ≤ 64
  | .restoreLineArrives data => data.length == 64
  | .hardwareReset | .resetRelease | .forwardedReadArrives _ _ _ | .forwardedWriteDone | .memoryErrorForwarded
  | .directoryReadFailed | .cueFetchFailed | .consumerWriteDone | .consumerWriteFailed | .requestScene
  | .stopScene | .stopAll | .closeZone | .openZone | .setLanguage | .setBaseLevel | .houseLights | .homeAxis
  | .holdShow | .releaseShow | .clearFault | .enterSafe | .leaveSafe | .restoreShow | .mark | .unknownKind
  | .failedEntryTake | .reportRecordDone | .reportWriteFailed | .producerWriteDone | .producerWriteFailed
  | .guardInputActive _ | .guardInputInactive _ | .settleDeadline _ | .visitorLineChange _ _
  | .debounceDeadline _ | .cooldownDeadline _ | .requestExpires _ | .scriptReadFailed | .lampStep _
  | .narrateStep _ | .moveStep _ | .waitStep _ | .markStep _ | .loopStep _ | .endStep _ | .scriptRunsOut _
  | .waitTimeout _ | .lampFrame | .clipReadFailed | .sampleInstant | .cutDeadline _ | .homeSwitchActive _
  | .homeNotFound _ | .arrival _ | .moveTimeout _ | .suspendingAtRest _ | .haltEnds _ | .suspendLimit _
  | .stall _ | .powerWarning | .faultPageLineDone | .faultPageWriteFailed | .snapshotLineDone | .snapshotFailed
  | .restoreReadFailed | .maximumSpeedReached _ | .beginToSlow _ | .directionReversal _ | .stepPulse _
  | .unknownStepKind _ | .powerWarningInactive | .stallInputInactive _ | .homeSwitchInactive _ => true

end Sys2Proof
end

