-- ==== Sys2Proof/Tests/Slice0.lean ====
section
/-! SUPPORT. Tests: the ill-formed commands the well-formedness check refuses, the spec's worked examples, one step of each
command on a small state, and a state that meets the hypotheses of each statement. -/

namespace Sys2Proof.Tests

open Sys2Proof.Machine

set_option maxRecDepth 100000
set_option Elab.async false

/-! ## Well-formedness -/

theorem test_write_of_wrong_length_is_ill_formed :
    Instr.WellFormed (.forwardedWriteArrives 0x2000 4 .showClass [1, 2, 3]) = false := by decide

theorem test_withdrawn_write_with_its_last_beat_is_ill_formed :
    Instr.WellFormed (.withdrawnWrite 0x2000 2 .showClass [1, 2]) = false := by decide

theorem test_empty_data_is_ill_formed : Instr.WellFormed (.forwardedData []) = false := by decide

theorem test_overlong_data_is_ill_formed : Instr.WellFormed (.forwardedData (zeros 65)) = false := by decide

theorem test_short_lines_are_ill_formed :
    [Instr.directoryLineArrives (zeros 63), .cueLineArrives (zeros 32), .scriptLineArrives [], .clipGroupArrives (zeros 65),
      .clipLineArrives [], .clipLineArrives (zeros 65), .restoreLineArrives (zeros 4)].all (!·.WellFormed) = true := by
  decide

theorem test_whole_lines_are_well_formed :
    [Instr.directoryLineArrives (zeros 64), .clipLineArrives (zeros 10), .forwardedWriteArrives 0 1 .showClass [7],
      .withdrawnWrite 0 4 .serviceClass [1], .stepPulse 11].all Instr.WellFormed = true := by decide

/-! ## Small states -/

/-- A directory of 64 MiB: eight zones each wired to its own guard line, scene 0 in zone 0, a button and a language button,
every axis enabled. -/
def dir0 : Directory :=
  { signature := 0x44535649, version := 1, languages := 2, lockOnTake := 0, sequence := 7, memoryCode := 2, debounce := 20,
    cueBase := 0x10000, cueSlots := 16, reportBase := 0x11000, reportSlots := 32, faultPage := 0x13000,
    snapshotArea := 0x13400, clipTable := 0x14000, clipGroups := 4, policies := filled 5 ⟨1, 4⟩,
    zones := tabulate fun z => ⟨1, z.val, 500, 0, if z = 0 then 1 else 0xFF⟩
    windows := tabulate fun w =>
      if w = 0 then ⟨0x100000, 0x200000, 2⟩ else if w = 1 then ⟨0x1000000, 0x2000000, 1⟩ else ⟨0, 0, 0⟩
    inputs := tabulate fun i => if i = 0 then ⟨1, 0, 0⟩ else if i = 1 then ⟨3, 0xFF, 0⟩ else ⟨0, 0xFF, 0⟩
    axes := tabulate fun n => ⟨1, n.val % 8, 0, 10000, 1000, 1000, 5000, 60⟩
    scenes := tabulate fun n => ⟨if n.val < 2 then 1 else 0, 1, 0, 1, 0x80000, 8, 10, 5, 1000⟩
    channels := filled 128 ⟨0, 100, 900⟩ }

/-- The show in RUN with that directory, nothing under way. -/
def show0 : State :=
  { State.reset with
    resetLow := false
    dir := ⟨some dir0, [], .idle, false, 7⟩
    disp := { State.reset.disp with windows := dir0.windows }
    lamp := { State.reset.lamp with channels := filled 128 ⟨0, none, none, false, 100, 900, some 0⟩ }
    lines := { State.reset.lines with guard := filled 8 .inactive, stall := filled 12 .inactive }
    ctl := { State.reset.ctl with state := .run } }

/-- In a show state. -/
def at' (s : State) (x : ShowState) : State := { s with ctl := { s.ctl with state := x } }

/-- With a cue at the head of the queue. -/
def withCue (s : State) (code : Byte) (params : List Byte) : State :=
  { s with cue := ⟨1, 1, 0, [.cue 0 code 5 (padTo 28 params)], false⟩ }

def cue0 (params : List Byte) : TakenCue := ⟨0, 5, padTo 28 params⟩

/-- With a transaction in flight. -/
def flying (s : State) (p : Purpose) (kind : TxKind) (addr length : Nat) (data : List Byte) (live : Bool := true) : State :=
  { s with port := some ⟨p, kind, addr, length, data, live⟩ }

/-- With slot 0 in scene 0, its clock at 1,000 ms and these steps in its buffer. -/
def inScene (s : State) (x : SlotState) (steps : List (List Byte)) : State :=
  s.setSlot 0 { Slot.reset with
    state := x, holding := some ⟨0, .visitor, 0⟩, clock := 1000, next := 1, fetch := 4
    buffer := steps.map fun b => ⟨padTo 16 b⟩ }

/-- A step of offset 0 with a kind and its bytes from 5 on. -/
def step0 (kind : Byte) (args : List Byte) : List Byte := [0, 0, 0, 0, kind] ++ args

def withVoice (s : State) (x : VoiceState) (buffer : List Byte) : State :=
  s.setVoice 0 { Voice.reset with
    state := x, owner := some 0, group := some 1, clip := some ⟨0x300000, 4096, 0x300000, 50⟩, fetchPos := 8, buffer := buffer }

/-- Axis 0 with a change. -/
def withAxis (s : State) (f : Axis → Axis) : State := s.setAxis 0 (f { Axis.reset with homed := true, state := .idle })

/-- Does a command's next state satisfy a check? -/
def after (c : Instr) (s : State) (check : State → Bool) : Bool :=
  match exec c s with
  | .next t => check t
  | _ => false

/-! ## Worked examples of the spec -/

/-- The table of dispositions of chapter 1.3. -/
theorem test_worked_dispositions :
    let s := show0.setPin (State.voicePlace 3) (some ⟨⟨0x1800000, 0x1840000⟩, none⟩)
    [s.disposal ⟨.write, 0x10000, 4, .showClass, zeros 4⟩, s.disposal ⟨.write, 0x11000, 8, .showClass, zeros 8⟩,
      s.disposal ⟨.write, 0x11004, 4, .showClass, zeros 4⟩, s.disposal ⟨.read, 0x100040, 32, .showClass, []⟩,
      s.disposal ⟨.read, 0x100040, 32, .serviceClass, []⟩, s.disposal ⟨.write, 0x1800100, 64, .serviceClass, zeros 64⟩,
      s.disposal ⟨.write, 0xFFC, 16, .showClass, zeros 16⟩, s.disposal ⟨.write, 0xFFC, 4, .serviceClass, zeros 4⟩,
      s.disposal ⟨.read, 0x4000000, 4, .showClass, []⟩] =
    [.pass, .refuse 1 1, .pass, .fill, .pass, .refuse 2 11, .malformed, .pass, .malformed] := by decide +kernel

/-- The forwarded write behind urgent refills of chapter 1.6: at its fourth wait an urgent voice goes first, then it does. -/
theorem test_worked_arbitration :
    let read : ReadRequest := ⟨0x300000, 64⟩
    let arb := { State.reset.arb with
      forwarded := true, forwardedWait := 3, voice := put (put (filled 8 none) 5 (some read)) 6 (some read)
      lookups := [⟨.cueLine, 0x10040⟩], voicePtr := 2, classPtr := .script }
    let s := { show0.setVoice 5 { Voice.reset with state := .fetching, owner := some 0, clip := some ⟨0, 4096, 0, 100⟩ } with
      up := ⟨some ⟨.write, 0x10040, 4, .showClass, zeros 4⟩, none⟩, arb := arb }
    let t := s.grant
    let u := { t with port := none }.grant
    let v := { u with port := none }.grant
    (t.port.map InFlight.purpose, t.arb.forwardedWait, t.arb.voicePtr, t.arb.classPtr) = (some (.clipLine 5), 4, 5, .script) ∧
      (u.port.map InFlight.purpose, u.arb.forwardedWait) = (some .forwarded, 0) ∧
      (v.port.map InFlight.purpose, v.arb.classPtr) = (some .cueLine, .lookup) := by decide +kernel

/-- The CUE RESULT record of chapter 12.4. -/
theorem test_worked_cue_result :
    (QueuedRecord.mk (.cueResult 37 0x0212 .merged 0) 90000).bytes 2 =
      [1, 2, 0, 0, 0x90, 0x5F, 0x01, 0x00, 0x25, 0, 0x12, 0x02, 2, 0, 0, 0] ++ zeros 16 := by decide +kernel

/-- A lamp link frame: marker, link, levels and their sum (R190). -/
theorem test_frame_bytes :
    frameBytes 1 (List.replicate 32 0x0123) =
      [0xA5, 1] ++ (List.replicate 32 ([0x23, 0x01] : List Byte)).flatten ++ [0x61, 0x24] := by decide +kernel

/-- A cue slot: kind, tag, parameters (12.3). -/
theorem test_cue_slot :
    cueOfSlot 3 ([16, 0, 0x34, 0x12, 0x78, 0x56] ++ zeros 26) = .cue 3 16 0x1234 ([0x78, 0x56] ++ zeros 26) := by
  decide +kernel

/-- A directory image with everything disabled passes its checks; one bit more fails its sum check (R27, R28). -/
def image0 : List Byte :=
  let head := padTo 0x40 ([0x49, 0x56, 0x53, 0x44] ++ bytes16 1 ++ [1, 0] ++ bytes32 7 ++ [0, 0] ++ bytes16 20)
  let geometry := bytes32 0x10000 ++ bytes16 16 ++ [0, 0] ++ bytes32 0x11000 ++ bytes16 32 ++ [0, 0] ++ bytes32 0x13000 ++
    bytes32 0x13400 ++ bytes32 0 ++ bytes16 0
  let policies := padTo 0xC0 (padTo 0x80 (head ++ geometry) ++ [1, 1, 1, 1, 1, 1, 1, 1, 1, 1])
  let channels := (List.replicate 128 (0xFF :: zeros 7)).flatten
  padTo 0xFF8 (padTo 0x500 policies ++ channels)

/-- That image with its sum word. -/
def sealed0 : List Byte := image0 ++ bytes32 (4294967296 - wordSum image0) ++ zeros 4

theorem test_image_passes : firstFailure sealed0 = none ∧ sealed0.length = 4096 := by decide +kernel

/-- The image of `dir0`, every record of it in its place (12.2). -/
def image1 : List Byte :=
  let head := padTo 0x40 ([0x49, 0x56, 0x53, 0x44] ++ bytes16 1 ++ [2, 0] ++ bytes32 7 ++ [2, 0] ++ bytes16 20)
  let geometry := bytes32 0x10000 ++ bytes16 16 ++ [0, 0] ++ bytes32 0x11000 ++ bytes16 32 ++ [0, 0] ++ bytes32 0x13000 ++
    bytes32 0x13400 ++ bytes32 0x14000 ++ bytes16 4
  let policies := padTo 0xC0 (padTo 0x80 (head ++ geometry) ++ (List.replicate 5 [1, 4]).flatten)
  let zones := (fins 8).flatMap fun z => [1, byteOf z.val] ++ bytes16 500 ++ [0, if z = 0 then 1 else 0xFF, 0, 0]
  let windows := padTo 192 (bytes32 0x100000 ++ bytes32 0x200000 ++ padTo 8 [2] ++ bytes32 0x1000000 ++ bytes32 0x2000000 ++
    padTo 8 [1])
  let inputs := padTo 128 ([1, 0, 0, 0, 3, 0xFF, 0, 0] ++ (List.replicate 22 [0, 0xFF, 0, 0]).flatten)
  let axes := padTo 192 ((fins 12).flatMap fun n => [1, byteOf (n.val % 8)] ++ bytes16 0 ++ bytes16 10000 ++ bytes16 1000 ++
    bytes32 1000 ++ bytes16 5000 ++ bytes16 60)
  let scenes := (fins 32).flatMap fun n => [if n.val < 2 then 1 else 0, 1, 0, 1] ++ bytes32 0x80000 ++ bytes16 8 ++
    bytes16 10 ++ bytes16 5 ++ bytes16 1000
  let channels := (List.replicate 128 ([0, 0] ++ bytes16 100 ++ bytes16 900 ++ [0, 0])).flatten
  padTo 0xFF8 (policies ++ zones ++ windows ++ inputs ++ axes ++ scenes ++ channels)

def sealed1 : List Byte := image1 ++ bytes32 (4294967296 - wordSum image1 % 4294967296) ++ zeros 4

theorem test_image_of_dir0 : directoryOf sealed1 = dir0 := by decide +kernel

theorem test_image_of_dir0_passes : firstFailure sealed1 = none := by decide +kernel

theorem dir0_passed : dir0.Passed := ⟨sealed1, test_image_of_dir0_passes, test_image_of_dir0.symm⟩

theorem test_image_sum_fails : (firstFailure (image0 ++ zeros 8)).map Check.word = some 2 := by decide +kernel

/-! ## One step of each command -/

theorem test_hardware_reset :
    exec .hardwareReset { show0 with pending := [.mark] } =
      .next { State.reset with pending := [.mark], lines := show0.lines } := rfl

theorem test_reset_release :
    after .resetRelease State.reset (fun t => t.resetLow == false && t.ctl.state == .start &&
      t.port == some ⟨.directory, .read, 0, 64, [], true⟩) = true := by decide +kernel

theorem test_filled_read :
    after (.forwardedReadArrives 0x100040 4 .showClass) show0 (fun t => t.up.response == some (.data [0, 0, 0, 0]) &&
      t.port == none && t.fault == show0.fault) = true := by decide +kernel

theorem test_refused_write :
    after (.forwardedWriteArrives 0x11000 8 .showClass (zeros 8)) show0 (fun t => t.up.response == some .refused &&
      (t.bank .link).code == some .writeRefused && (t.bank .link).detail == [0x11000, 0, 1, 1, 0]) = true := by
  decide +kernel

/-- A write of the reload word that the lock refuses is a reload request made while locked (R8). -/
theorem test_refused_reload_word :
    after (.forwardedWriteArrives 0xFFF 1 .serviceClass [0]) { show0 with dir := { show0.dir with locked := true } }
      (fun t => t.up.response == some .refused && (t.bank .link).code == some .writeRefused &&
        (t.bank .showBank).code == some .reloadIgnored) = true := by decide +kernel

theorem test_withdrawn_write : exec (.withdrawnWrite 0x10000 4 .showClass [1]) show0 = .next show0 := rfl

theorem test_forwarded_data :
    after (.forwardedData [1, 2]) (flying show0 .forwarded .read 0x9000 2 []) (fun t => t.up.response == some (.data [1, 2]) &&
      t.port == none) = true := by decide +kernel

theorem test_producer_word_observed :
    after .forwardedWriteDone (flying show0 .forwarded .write 0x10000 2 [3, 0]) (fun t => t.up.response == some .done &&
      t.disp.cueProducer == 3 && t.cue.accepted == 3 &&
      t.port == some ⟨.cueLine, .read, 0x10040, 64, [], true⟩) = true := by decide +kernel

theorem test_memory_error_forwarded :
    after .memoryErrorForwarded
      { flying show0 .forwarded .read 0x9000 2 [] with up := ⟨some ⟨.read, 0x9000, 2, .serviceClass, []⟩, none⟩ }
      (fun t => t.up.response == some .memoryError && (t.bank .link).detail == [0x9000, 1, 0, 0, 0]) = true := by
  decide +kernel

theorem test_directory_line :
    after (.directoryLineArrives (zeros 64))
      { flying (at' show0 .start) .directory .read 0 64 [] with dir := ⟨none, [], .loading 0, false, 0⟩ }
      (fun t => t.dir.load == .loading 1 && t.dir.image == zeros 64 &&
        t.port == some ⟨.directory, .read, 64, 64, [], true⟩) = true := by decide +kernel

theorem test_directory_read_failed :
    after .directoryReadFailed
      { flying (at' show0 .start) .directory .read 64 64 [] with dir := ⟨none, zeros 64, .loading 1, false, 0⟩ }
      (fun t => t.ctl.state == .unconfigured && t.dir.load == .idle && t.dir.image == [] &&
        (t.bank .showBank).code == some .directoryReadFailed) = true := by decide +kernel

theorem test_cue_line :
    after (.cueLineArrives ([16, 0, 5, 0, 9] ++ zeros 27 ++ [3] ++ zeros 31))
      { flying show0 .cueLine .read 0x10040 64 [] with cue := ⟨1, 0, 0, [], false⟩ }
      (fun t => t.cue.fetched == 1 && t.cue.queue == [.cue 0 16 5 ([9] ++ zeros 27)]) = true := by decide +kernel

theorem test_cue_fetch_failed :
    after .cueFetchFailed { flying show0 .cueLine .read 0x10040 64 [] with cue := ⟨2, 0, 0, [], false⟩ }
      (fun t => t.cue.fetched == 2 && t.cue.queue == [.failed 0, .failed 1] &&
        (t.bank .showBank).code == some .cueFetchFailed) = true := by decide +kernel

/-- P lowered to 2 behind F = 4 and passed by C = 3: nothing is fetched or entered until a new P passes F (R40, log 43). -/
theorem test_cue_producer_passed :
    let passed := { show0 with cue := ⟨2, 4, 3, [.failed 3], false⟩ }
    passed.cueWant = none ∧ { passed with cue := { passed.cue with accepted := 5 } }.cueWant = some 0x100C0 ∧
    after (.cueLineArrives (zeros 64)) (flying passed .cueLine .read 0x100C0 64 []) (fun t =>
      t.cue.queue == [.failed 3] && t.cue.fetched == 4 && t.port.isNone) = true ∧
    after .cueFetchFailed (flying passed .cueLine .read 0x100C0 64 []) (fun t =>
      t.cue.queue == [.failed 3] && t.cue.fetched == 4 && (t.bank .showBank).code == some .cueFetchFailed) = true := by
  decide +kernel

theorem test_consumer_write_done :
    after .consumerWriteDone
      { flying show0 (.consumer 1) .write 0x10004 4 [1, 0, 0, 0] with cue := ⟨1, 1, 1, [], true⟩ }
      (fun t => t.cue.writePending == false && t.port == none) = true := by decide +kernel

theorem test_consumer_write_failed :
    after .consumerWriteFailed
      { flying show0 (.consumer 1) .write 0x10004 4 [1, 0, 0, 0] with cue := ⟨1, 1, 1, [], true⟩ }
      (fun t => t.cue.writePending && (t.bank .link).detail == [0x10004, 4, 0, 0, 0]) = true := by decide +kernel

/-- REQUEST SCENE starts scene 0 in slot 0: QUEUED, then SCENE STARTED, its pin and its script read (R78, R84). -/
theorem test_request_scene :
    after .requestScene (withCue show0 1 [0]) (fun t => (t.slot 0).state == .loading && (t.zone 0).owner == some 0 &&
      t.report.queue.map QueuedRecord.record ==
        [.cueResult 0 5 .queued 0, .sceneStarted 0 0 (.cue 5) false] &&
      (t.pins.get 0).isSome && t.port == some ⟨.script 0, .read, 0x80000, 64, [], true⟩) = true := by decide +kernel

theorem test_stop_scene :
    after .stopScene (withCue (inScene show0 .running []) 2 [0]) (fun t => (t.slot 0).state == .free &&
      t.report.queue.map QueuedRecord.record == [.cueResult 0 5 .accepted 0, .sceneEnded 0 0 .stopped]) = true := by
  decide +kernel

theorem test_stop_all :
    after .stopAll (withCue (inScene show0 .held []) 3 []) (fun t => (t.slot 0).state == .free) = true := by decide +kernel

/-- A slot that a RELOAD stop finds STOPPING as COMPLETED keeps its voice (R114, R174). -/
theorem test_draining_leaves_completed_slots :
    let s := flying (withVoice (inScene show0 .stopping []) .playing (zeros 8)) .forwarded .write 0xFFC 4 [1, 0, 0, 0]
    after .forwardedWriteDone (s.setSlot 0 { s.slot 0 with endReason := some .completed }) (fun t =>
      t.ctl.state == .draining && (t.voice 0).state == .playing && (t.slot 0).endReason == some .completed) = true := by
  decide +kernel

theorem test_close_zone :
    after .closeZone (withCue show0 4 [3]) (fun t => (t.zone 3).closed && !(t.zone 2).closed) = true := by decide +kernel

theorem test_open_zone :
    after .openZone (withCue (show0.setZone 3 { show0.zone 3 with closed := true }) 5 [3]) (fun t => !(t.zone 3).closed) =
      true := by decide +kernel

theorem test_set_language :
    after .setLanguage (withCue show0 6 [7, 1]) (fun t => (t.zone 7).language == 1) = true ∧
      after .setLanguage (withCue show0 6 [7, 2]) (fun t => (t.zone 7).language == 0 &&
        t.report.queue.map QueuedRecord.record == [.cueResult 0 5 (.refused .range) 0]) = true := by decide +kernel

theorem test_set_base_level :
    after .setBaseLevel (withCue show0 7 [126, 2, 0xE8, 3, 10, 0]) (fun t => (t.channel 127).base == 1000 &&
      (t.channel 125).base == 100 && (t.channel 126).fade == some ⟨0, 1000, 10, 0, some 0⟩) = true := by decide +kernel

theorem test_house_lights :
    after .houseLights (withCue show0 8 [1]) (fun t => t.lamp.houseLights) = true ∧
      after .houseLights (withCue (at' show0 .safe) 8 [0]) (fun t =>
        t.report.queue.map QueuedRecord.record == [.cueResult 0 5 (.refused .wrongState) 0]) = true := by decide +kernel

theorem test_home_axis :
    after .homeAxis (withCue show0 9 [0]) (fun t => (t.axis 0).state == .homing && (t.axis 0).owner == .cue &&
      (t.zone 0).cueHoming == [0]) = true ∧
      after .homeAxis (withCue show0 9 [0xFF]) (fun t =>
        t.report.queue.head?.map QueuedRecord.record == some (.cueResult 0 5 .accepted 12)) = true := by decide +kernel

theorem test_hold_show :
    after .holdShow (withCue (inScene show0 .running []) 10 []) (fun t => t.ctl.state == .hold &&
      (t.slot 0).state == .held && (t.axis 0).holdReason && t.ctl.snapshot.isSome) = true := by decide +kernel

theorem test_release_show :
    after .releaseShow (withCue (at' (inScene show0 .held []) .hold) 11 []) (fun t => t.ctl.state == .run &&
      (t.slot 0).state == .running) = true := by decide +kernel

theorem test_clear_fault :
    after .clearFault (withCue (show0.log .stall [1]) 12 [4]) (fun t => t.bank .motion == .invalid && !t.fault.alarmed) =
      true := by decide +kernel

theorem test_enter_safe :
    after .enterSafe (withCue (inScene show0 .running []) 13 []) (fun t => t.ctl.state == .safe && t.lamp.houseLights &&
      (t.slot 0).state == .free && t.report.attention) = true := by decide +kernel

theorem test_leave_safe :
    after .leaveSafe (withCue (at' show0 .safe) 14 []) (fun t => t.ctl.state == .run) = true ∧
      after .leaveSafe (withCue ((at' show0 .safe).log .stall []) 14 []) (fun t => t.ctl.state == .safe) = true := by
  decide +kernel

theorem test_restore_show :
    after .restoreShow (withCue show0 15 []) (fun t => t.ctl.restore == some ⟨none, []⟩) = true := by decide +kernel

theorem test_mark :
    after .mark (withCue show0 16 [4, 3, 2, 1]) (fun t => t.cue.consumer == 1 && t.cue.writePending &&
      t.report.queue.map QueuedRecord.record == [.cueResult 0 5 .accepted 0x01020304]) = true := by decide +kernel

theorem test_unknown_kind :
    after .unknownKind (withCue show0 17 []) (fun t =>
      t.report.queue.map QueuedRecord.record == [.cueResult 0 5 (.refused .unknownKind) 0]) = true := by decide +kernel

theorem test_failed_entry_take :
    after .failedEntryTake { show0 with cue := ⟨1, 1, 0, [.failed 0], false⟩ } (fun t =>
      t.report.queue.map QueuedRecord.record == [.cueResult 0 0 .failed 0] && t.cue.queue == []) = true := by decide +kernel

theorem test_report_record_done :
    after .reportRecordDone
      { flying show0 (.record 2) .write 0x11040 32 (zeros 32) with
        report := ⟨[⟨.showState .start .run, 0⟩], 0, 0, 3, false, false⟩ }
      (fun t => t.report.queue == [] && t.report.producer == 1 && t.report.lost == 1 && t.report.writePending &&
        t.report.attention) = true := by decide +kernel

theorem test_report_write_failed :
    after .reportWriteFailed
      { flying show0 (.record 0) .write 0x11040 32 (zeros 32) with
        report := ⟨[⟨.showState .start .run, 0⟩], 0, 0, 255, false, false⟩ }
      (fun t => t.report.lost == 255 && t.report.producer == 0 && (t.bank .showBank).code == some .reportWriteFailed) =
      true := by decide +kernel

theorem test_producer_write_done :
    after .producerWriteDone
      { flying show0 (.producer 1) .write 0x11000 4 [1, 0, 0, 0] with report := ⟨[], 1, 1, 0, true, false⟩ }
      (fun t => !t.report.writePending) = true := by decide +kernel

/-- The bytes of the two index words (12.3). -/
theorem test_index_word_bytes :
    let s := { show0 with report := ⟨[], 0xBEEF, 0, 0, true, false⟩, cue := ⟨0x1234, 0x1234, 0x1234, [], true⟩ }
    s.writeOf dir0 .producer = (.producer 0xBEEF, 0x11000, [0xEF, 0xBE, 0, 0]) ∧
      s.writeOf dir0 .consumer = (.consumer 0x1234, 0x10004, [0x34, 0x12, 0, 0]) := by decide +kernel

theorem test_producer_write_failed :
    after .producerWriteFailed
      { flying show0 (.producer 1) .write 0x11000 4 [1, 0, 0, 0] with report := ⟨[], 1, 1, 0, true, false⟩ }
      (fun t => t.report.writePending && (t.bank .link).code == some .memoryErrorInternal) = true := by decide +kernel

theorem test_guard_input_active :
    after (.guardInputActive 7) show0 (fun t => (t.zone 7).guard == .tripped && (t.axis 7).guardReason &&
      !(t.axis 0).guardReason) = true := by decide +kernel

theorem test_guard_input_inactive :
    after (.guardInputInactive 0)
      { show0.setZone 0 { show0.zone 0 with guard := .tripped } with
        lines := { show0.lines with guard := filled 8 .active }, showTime := 0xFFFFFFFF }
      (fun t => (t.zone 0).guard == .settling && (t.zone 0).settle == some 499) = true := by decide +kernel

theorem test_settle_deadline :
    after (.settleDeadline 0) (show0.setZone 0 { show0.zone 0 with guard := .settling, settle := some 0 })
      (fun t => (t.zone 0).guard == .clear && (t.zone 0).settle == none) = true := by decide +kernel

theorem test_visitor_line_change :
    after (.visitorLineChange 23 .active) show0 (fun t => (t.input 23).raw == .active &&
      (t.input 23).debounced == .inactive && (t.input 23).deadline == some 20) = true := by decide +kernel

theorem test_debounce_deadline :
    after (.debounceDeadline 0) (show0.setInput 0 ⟨.active, .inactive, some 0⟩) (fun t =>
      (t.input 0).debounced == .active && (t.slot 0).holding.map Holding.scene == some 0) = true ∧
    after (.debounceDeadline 1) (show0.setInput 1 ⟨.active, .inactive, some 0⟩) (fun t => (t.zone 0).language == 1) =
      true := by decide +kernel

theorem test_cooldown_deadline :
    after (.cooldownDeadline 31) { show0 with req := { show0.req with cooldown := filled 32 (some 0) } } (fun t =>
      t.req.cooldown.get 31 == none && t.req.cooldown.get 0 == some 0) = true := by decide +kernel

theorem test_request_expires :
    after (.requestExpires 0) { show0 with req := { show0.req with queue := [⟨0, .auto, 0, false, .waiting, false⟩] } }
      (fun t => t.req.queue == [] &&
        t.report.queue.map QueuedRecord.record == [.requestDropped 0 .auto .expired]) = true := by decide +kernel

theorem test_script_line :
    after (.scriptLineArrives (step0 5 (zeros 11) ++ zeros 48))
      (flying (show0.setSlot 0 { Slot.reset with state := .loading, holding := some ⟨0, .visitor, 0⟩ }) (.script 0) .read
        0x80000 64 [])
      (fun t => (t.slot 0).fetch == 4 && (t.slot 0).buffer.length == 4 && (t.slot 0).lines == 1 &&
        (t.slot 0).state == .loading && t.port == some ⟨.script 0, .read, 0x80040, 64, [], true⟩) = true := by
  decide +kernel

theorem test_script_read_failed :
    after .scriptReadFailed (flying (inScene show0 .running []) (.script 0) .read 0x80040 64 []) (fun t =>
      (t.slot 0).state == .free && (t.bank .scene).detail == [0, 0, 0, 0x80040, 0]) = true := by decide +kernel

theorem test_lamp_step :
    after (.lampStep 0) (inScene show0 .running [step0 1 [0, 126, 2, 0xE8, 3, 10, 0]]) (fun t => (t.slot 0).next == 2 &&
      (t.channel 127).owner == some 0 && (t.channel 127).fade == some ⟨0, 1000, 10, 0, some 0⟩ &&
      (t.channel 125).owner == none) = true := by decide +kernel

/-- A LAMP step whose count is 0 fails its second own check: place 3 after the kind and the offset (R99, log 31). -/
theorem test_failing_step :
    after (.lampStep 0) (inScene show0 .running [step0 1 [0, 126, 0, 0xE8, 3, 10, 0]]) (fun t =>
      (t.bank .scene).code == some .scriptFault && (t.bank .scene).detail == [0, 0, 0, 1, 3] &&
      t.report.queue.map QueuedRecord.record == [.sceneEnded 0 0 .scriptFault]) = true := by decide +kernel

/-- A step taken as its line arrives, 101 ms late, is reported and taken; 100 ms late it is not reported (R98). -/
theorem test_late_step :
    let s := fun clock : Nat => (let s := inScene show0 .running [step0 5 []]; s.setSlot 0 { s.slot 0 with clock := clock })
    let e := fun clock : Nat => (perform (.takeSteps 0 (some 1)) (s clock)).1
    ((e 101).bank .scene).code = some .stepLate ∧ ((e 101).bank .scene).detail = detailWords [0, 0, 0, 1, 101] ∧
      ((e 101).slot 0).next = 2 ∧ ((e 100).bank .scene).valid = false ∧ ((e 100).slot 0).next = 2 := by decide +kernel

/-- A late step that fails its check: STEP LATE before SCRIPT FAULT (log 50). -/
theorem test_late_step_that_fails :
    let s := inScene show0 .running [step0 9 []]
    let told := { s with dir := { s.dir with taken := some { dir0 with policies := filled 5 ⟨1, 1⟩ } } }
    ((perform (.takeSteps 0 (some 1)) told).1.report.queue.map QueuedRecord.record ==
      [.fault .stepLate (detailWords [0, 0, 0, 1, 1000]), .fault .scriptFault (detailWords [0, 0, 0, 1, 0])]) = true := by
  decide +kernel

theorem test_narrate_step :
    after (.narrateStep 0) (inScene show0 .running [step0 2 [0, 0, 0, 3, 0]]) (fun t => (t.voice 0).state == .lookup &&
      (t.voice 0).group == some 3 && (t.voice 0).owner == some 0 &&
      t.arb.lookups == [⟨.clipGroup 0, 0x140C0⟩]) = true := by decide +kernel

theorem test_move_step :
    after (.moveStep 0) (withAxis (inScene show0 .running [step0 3 [0, 0, 0, 0x10, 0x27]]) id) (fun t =>
      (t.axis 0).state == .moving && (t.axis 0).target == some 10000 && (t.axis 0).owner == .slot 0 &&
      (t.axis 0).direction == .higher) = true := by decide +kernel

theorem test_wait_step :
    after (.waitStep 0) (inScene show0 .running [step0 4 [2, 0, 1, 100, 0, 0, 0, 1]]) (fun t =>
      (t.slot 0).wait == some ⟨.input 0 .active, some 100, true⟩) = true := by decide +kernel

theorem test_mark_step :
    after (.markStep 0) (inScene show0 .running [step0 5 [0, 0, 0, 4, 3, 2, 1]]) (fun t =>
      t.report.queue.map QueuedRecord.record == [.stepMark 0 0 1 0x01020304]) = true := by decide +kernel

theorem test_loop_step :
    after (.loopStep 0) (inScene show0 .running [step0 6 [0, 0, 0, 2, 0, 0, 0, 7, 0, 0, 0]]) (fun t =>
      (t.slot 0).next == 0 && (t.slot 0).fetch == 0 && (t.slot 0).buffer == [] && (t.slot 0).clock == 7 &&
      (t.slot 0).loop == some ⟨1, 1⟩) = true := by decide +kernel

theorem test_end_step :
    after (.endStep 0) (inScene show0 .running [step0 7 [], step0 5 []]) (fun t =>
      t.report.queue.map QueuedRecord.record == [.sceneEnded 0 0 .completed]) = true := by decide +kernel

theorem test_unknown_step_kind :
    after (.unknownStepKind 0) (inScene show0 .running [step0 8 []]) (fun t =>
      (t.bank .scene).detail == [0, 0, 0, 1, 0]) = true := by decide +kernel

theorem test_script_runs_out :
    after (.scriptRunsOut 0) (let s := inScene show0 .running []; s.setSlot 0 { s.slot 0 with next := 8 }) (fun t =>
      t.report.queue.map QueuedRecord.record == [.sceneEnded 0 0 .completed]) = true := by decide +kernel

theorem test_wait_timeout :
    after (.waitTimeout 0) (let s := inScene show0 .running []
      s.setSlot 0 { s.slot 0 with wait := some ⟨.voice 0, some 0, false⟩ }) (fun t => (t.slot 0).wait == none &&
        (t.bank .scene).code == some .waitTimeout && (t.slot 0).state == .running) = true := by decide +kernel

/-- A fade of 100 ms at 25 ms, its fraction dropped toward the start level, and the frame's values (R118 to R120). -/
theorem test_lamp_frame :
    after .lampFrame
      (let s := { show0 with showTime := 25, lamp := { show0.lamp with nextFrame := some 25 } }
       s.setChannel 0 { s.channel 0 with level := 11, fade := some ⟨11, 0, 100, 0, some 0⟩ })
      (fun t => (t.channel 0).level == 9 && t.lamp.nextFrame == some 50 &&
        (t.lamp.frames.get 0).take 6 == [0xA5, 0, 9, 0, 0, 0]) = true := by decide +kernel

/-- The first bits of a frame: a start bit, 0xA5 from its least significant bit, two stop bits, the link number; the line
rests high from bit 748 on (R190, log 42). -/
theorem test_frame_bits :
    let s := { show0 with showTime := 25, lamp := { show0.lamp with nextFrame := some 25 } }
    let t := s.sendFrames
    let bits := fun (u : State) (link : Fin 4) (n : Fin 250) => u.linkHigh link n
    (List.map (bits t 1) [0, 1, 2, 3, 4, 5, 6, 7, 8, 9, 10, 11, 12, 13]) =
        [false, true, false, true, false, false, true, false, true, true, true, false, true, false] ∧
      (bits { t with showTime := 27 } 1 247, bits { t with showTime := 27 } 1 248, bits { t with showTime := 49 } 1 0) =
        (true, true, true) ∧ bits s 1 0 = true := by decide +kernel

/-- A clip that crosses its bank's end is played from two ranges (R135). -/
theorem test_clip_group :
    after (.clipGroupArrives (padTo 64 ([0xF0, 0xFF, 0x1F, 0, 0x20, 0, 0, 0, 150])))
      (flying (withVoice show0 .lookup []) (.clipGroup 0) .read 0x14040 64 [])
      (fun t => (t.voice 0).state == .fetching && (t.voice 0).clip == some ⟨0x1FFFF0, 0x20, 0x100000, 100⟩ &&
        t.pins.get 8 == some ⟨⟨0x1FFFF0, 0x200000⟩, some ⟨0x100000, 0x100010⟩⟩ &&
        t.port == some ⟨.clipLine 0, .read, 0x1FFFF0, 16, [], true⟩) = true := by decide +kernel

theorem test_clip_line :
    after (.clipLineArrives (zeros 64)) (flying (withVoice show0 .starved (zeros 448)) (.clipLine 0) .read 0x300008 64 [])
      (fun t => (t.voice 0).state == .playing && (t.voice 0).buffer.length == 512 && (t.voice 0).fetchPos == 72) = true := by
  decide +kernel

theorem test_clip_read_failed :
    after .clipReadFailed (flying (withVoice show0 .playing []) (.clipLine 0) .read 0x300008 56 []) (fun t =>
      (t.voice 0).state == .idle && (t.bank .voice).detail == [0, 0, 1, 0x300008, 0]) = true := by decide +kernel

/-- The sample −3 at gain 50 is −1: products are truncated toward zero (R132). -/
theorem test_sample_instant :
    after .sampleInstant (withVoice show0 .playing [0xFD, 0xFF, 1, 1]) (fun t => (t.voice 0).output == 0xFFFF &&
      (t.voice 0).buffer == [1, 1] && (t.voice 0).playPos == 2 && t.sampleCount == 1) = true ∧
    after .sampleInstant (withVoice show0 .playing []) (fun t => (t.voice 0).state == .starved &&
      t.report.queue.map QueuedRecord.record == [.voiceStarved 0 (some 0) 0x300000]) = true := by decide +kernel

/-- A voice cut while PAUSED is silent though its buffer is full; one cut while PLAYING fades (R141, log 39). -/
theorem test_silent_cut :
    let cut := fun x : VoiceState => (perform (.cutVoice 0) (withVoice show0 x [0, 0x40, 0, 0x40])).1
    ((cut .paused).voice 0).muted = true ∧ ((cut .playing).voice 0).muted = false ∧
      after .sampleInstant (cut .paused) (fun t => (t.voice 0).output == 0 && (t.voice 0).buffer.length == 4) = true ∧
      after .sampleInstant (cut .playing) (fun t => (t.voice 0).output == 0x2000 && (t.voice 0).buffer.length == 2) = true := by
  decide +kernel

/-- Two voices play their last samples in one instant: the first becomes IDLE, and the slot that waits on it narrates on
the second before its last sample, which is cut with 2 bytes buffered (R140, log 8) and played at full level (log 51). -/
theorem test_two_voices_finish :
    let s := inScene show0 .running [step0 2 [0, 1, 0, 2, 0]]
    let last := fun v : Voice => { v with state := .draining, owner := some 0, group := some 1
                                          clip := some ⟨0x300000, 4, 0x300000, 100⟩, playPos := 2, buffer := [0, 0x40] }
    let d := { dir0 with scenes := tabulate fun n => { dir0.scenes.get n with zoneSet := 3 } }
    let t := { (s.setVoice 0 (last (s.voice 0))).setVoice 1 (last (s.voice 1)) with dir := { s.dir with taken := some d } }
    after .sampleInstant (t.setSlot 0 { t.slot 0 with wait := some ⟨.voice 0, none, false⟩ }) (fun u =>
      (u.voice 0).state == .idle && (u.voice 1).state == .stopping && (u.voice 1).pendingGroup == some 2 &&
        (u.voice 1).output == 0x4000) = true := by decide +kernel

theorem test_cut_deadline :
    after (.cutDeadline 0) (let s := withVoice show0 .stopping []
      s.setVoice 0 { s.voice 0 with cutDeadline := some 0 }) (fun t => (t.voice 0).state == .idle) = true := by decide +kernel

theorem test_home_switch_active :
    after (.homeSwitchActive 0) (withAxis show0 fun a => { a with state := .homing, owner := .cue, homed := false, position := 5 })
      (fun t => (t.axis 0).state == .idle && (t.axis 0).homed && (t.axis 0).position == 0 && (t.axis 0).owner == .nobody &&
        t.report.queue.map QueuedRecord.record == [.axisHomed 0 .cue 0]) = true := by decide +kernel

/-- A homing with a pending move goes on from speed 0; one to the home position arrives at once (R153, R149). -/
theorem test_home_with_pending_move :
    let s := fun p : Nat => withAxis show0 fun a => { a with
      state := .homing, homed := false, owner := .slot 0, position := 5, elapsed := 40, pendingMove := some p
      run := some (.restAt (.whole 10)) }
    after (.homeSwitchActive 0) (s 0) (fun t => (t.axis 0).state == .idle && (t.axis 0).lastResult == some .done &&
      (t.axis 0).position == 0 && (t.axis 0).owner == .nobody) = true ∧
    after (.homeSwitchActive 0) (s 9) (fun t => (t.axis 0).state == .moving && (t.axis 0).position == 0 &&
      (t.axis 0).direction == .higher && (t.axis 0).speed dir0.axes[0] == .whole 0 &&
      (t.axis 0).run.map Run.kind == some .speedingUp) = true := by decide +kernel

theorem test_home_not_found :
    after (.homeNotFound 0) (withAxis show0 fun a => { a with state := .homing, owner := .cue, homed := false, elapsed := 20000 })
      (fun t => (t.axis 0).state == .faulted && (t.bank .motion).code == some .homeNotFound) = true := by decide +kernel

theorem test_arrival :
    after (.arrival 0) (withAxis show0 fun a => { a with state := .moving, owner := .slot 0, position := 9, target := some 9 })
      (fun t => (t.axis 0).state == .idle && (t.axis 0).lastResult == some .done) = true := by decide +kernel

theorem test_move_timeout :
    after (.moveTimeout 0)
      (withAxis show0 fun a => { a with state := .moving, elapsed := 5000, target := some 9, run := some (.restAt (.whole 0)) })
      (fun t => (t.axis 0).state == .faulted && (t.axis 0).lastResult == some .timeout &&
        (t.bank .motion).detail == [0, 0xFF, 0, 9, 0]) = true := by decide +kernel

theorem test_suspending_at_rest :
    after (.suspendingAtRest 0) (withAxis show0 fun a => { a with state := .suspending, guardReason := true, resumeTo := some .moving })
      (fun t => (t.axis 0).state == .suspended && (t.axis 0).suspendedSince == some 0) = true := by decide +kernel

theorem test_halt_ends :
    after (.haltEnds 0) (withAxis show0 fun a => { a with state := .halting, owner := .slot 0 }) (fun t =>
      (t.axis 0).state == .idle && (t.axis 0).lastResult == some .halted && (t.axis 0).owner == .nobody) = true := by
  decide +kernel

theorem test_suspend_limit :
    after (.suspendLimit 0)
      (withAxis show0 fun a => { a with state := .suspended, guardReason := true, suspendedSince := some 0, suspendedTotal := 60000 })
      (fun t => (t.axis 0).lastResult == some .abandoned && (t.bank .motion).detail == [0, 0xFF, 0, 1, 0]) = true := by
  decide +kernel

theorem test_stall :
    after (.stall 0) (withAxis show0 fun a => { a with driverEnabled := true, owner := .slot 0 }) (fun t =>
      (t.axis 0).state == .faulted && !(t.axis 0).driverEnabled && !(t.axis 0).homed && t.ctl.state == .run) = true ∧
    after (.stall 0) (show0.log .stall []) (fun t => t.ctl.state == .safe) = true := by decide +kernel

theorem test_power_warning :
    after .powerWarning show0 (fun t => t.ctl.state == .hold && (t.bank .showBank).code == some .powerWarning &&
      t.ctl.snapshot.map Snapshot.reason == some .powerWarning) = true := by decide +kernel

theorem test_fault_page_line_done :
    after .faultPageLineDone (flying { show0 with fault := { show0.fault with writer := some 3 } } .page .write 0x130C0 64 [])
      (fun t => t.fault.writer == none) = true := by decide +kernel

theorem test_fault_page_write_failed :
    after .faultPageWriteFailed (flying { show0 with fault := { show0.fault with writer := some 1 } } .page .write 0x13040 64 [])
      (fun t => t.fault.writer == none && !t.fault.dirty && (t.bank .showBank).code == some .faultPageWriteFailed) = true := by
  decide +kernel

theorem test_snapshot_line_done :
    after .snapshotLineDone
      (flying { show0 with ctl := { show0.ctl with snapshot := some ⟨[], .hold, 7, 16⟩ } } .snapshot .write 0x137C0 64 [])
      (fun t => t.ctl.snapshot == none &&
        t.report.queue.map QueuedRecord.record == [.snapshotDone .hold 7]) = true := by decide +kernel

/-- A request whose wait is over expires in HOLD too (log 53), and a saved loop count of 65,535 is taken as read (log 54). -/
theorem test_expires_in_hold_and_saved_loop_count :
    after (.requestExpires 1) { at' show0 .hold with req := { show0.req with queue := [⟨1, .auto, 0, false, .waiting, false⟩] } }
        (fun t => t.req.queue.isEmpty && t.report.queue.map QueuedRecord.record == [.requestDropped 1 .auto .expired]) = true ∧
      (savedSlot (padTo 960 (padTo 0x48 [] ++ [3, 0, 0xFF, 0xFF])) 0).loop = some ⟨3, 65535⟩ := by decide +kernel

/-- An axis at its move time limit does not time out while it is suspended, and is due to when it moves again (log 55). -/
theorem test_limit_in_suspension :
    let s := fun x : AxisState => withAxis show0 fun a => { a with state := x, elapsed := 5000, target := some 9 }
    (s .suspending).isDue (.moveTimeout 0) = false ∧ (s .suspended).isDue (.moveTimeout 0) = false ∧
      (s .moving).isDue (.moveTimeout 0) = true := by decide +kernel

/-- The bytes of a Fault Page line and of the 17 writes of a snapshot (12.7, 12.8). -/
theorem test_page_and_snapshot_bytes :
    let s := (withAxis show0 id).log .moveTimeout [0, 2, 3, 4]
    let page := fun l => { s with fault := { s.fault with writer := some l } }.writeOf dir0 .page
    let write := fun due => { show0 with ctl := { show0.ctl with
      snapshot := some ⟨(List.range 960).map byteOf, .hold, 7, due⟩ } }.writeOf dir0 .snapshot
    page 2 = (.page, 0x13080, [1, 2, 1, 0, 0, 0, 0, 0, 0, 0, 0, 0, 2, 0, 0, 0, 3, 0, 0, 0, 4, 0, 0, 0, 0, 0, 0, 0, 0, 0, 0, 0,
        7, 0, 0, 0] ++ zeros 28) ∧ page 0 = (.page, 0x13000, zeros 64) ∧ page 3 = (.page, 0x130C0, zeros 64) ∧
      write 0 = (.snapshot, 0x137C0, zeros 64) ∧ write 1 = (.snapshot, 0x13400, (List.range 64).map byteOf) ∧
      write 15 = (.snapshot, 0x13780, (List.range 64).map fun i => byteOf (0x80 + i)) ∧
      write 16 = (.snapshot, 0x137C0, [0xC3, 0xA5, 0x5A, 0x3C, 7, 0, 0, 0] ++ zeros 56) := by decide +kernel

theorem test_snapshot_failed :
    after .snapshotFailed
      (flying { show0 with ctl := { show0.ctl with snapshot := some ⟨[], .hold, 7, 3⟩ } } .snapshot .write 0x13480 64 [])
      (fun t => t.ctl.snapshot == none && (t.bank .showBank).code == some .snapshotFailed) = true := by decide +kernel

theorem test_restore_marker :
    after (.restoreLineArrives (markerLine (some 7)))
      (flying { show0 with ctl := { show0.ctl with restore := some ⟨none, []⟩ } } .restore .read 0x137C0 64 [])
      (fun t => t.ctl.restore == some ⟨some 0, []⟩ && t.port == some ⟨.restore, .read, 0x13400, 64, [], true⟩) = true := by
  decide +kernel

/-- Slot 2 was RUNNING scene 0 at step 3: it is restored, and zone 1 takes its saved language (R187). -/
theorem test_restore_ends :
    after (.restoreLineArrives (zeros 64))
      (flying { show0 with ctl := { show0.ctl with restore := some ⟨some 14,
          padTo 896 (padTo 0x2F1 (padTo 0x60 [] ++ [2, 0, 3, 0, 9, 0, 0, 0, 0xFF, 0xFF, 0, 0]) ++ [1])⟩ } } .restore .read
        0x13780 64 [])
      (fun t => (t.slot 2).state == .loading && (t.slot 2).next == 3 && (t.slot 2).savedClock == some 9 &&
        (t.zone 0).owner == some 2 && (t.zone 1).language == 1 && (t.channel 0).owner == some 2 &&
        t.report.queue.map QueuedRecord.record == [.restoreDone .restored 1]) = true := by decide +kernel

theorem test_restore_read_failed :
    after .restoreReadFailed
      (flying { show0 with ctl := { show0.ctl with restore := some ⟨none, []⟩ } } .restore .read 0x137C0 64 [])
      (fun t => t.ctl.restore == none && t.report.queue.map QueuedRecord.record == [.restoreDone .failed 0]) = true := by
  decide +kernel

/-- An axis on the way from 0 to 2,000 at 1,000 step/s and 1,000 step/s², some ms into a part of its profile. -/
def onTheWay (kind : RunKind) (speed place : Nat) (ms : Nat) (target : Nat) : State :=
  withAxis show0 fun a => { a with
    state := .moving, target := some target, direction := .higher, profileMs := ms, position := place
    run := some ⟨kind, .whole 0, .whole place, .whole speed, .whole target⟩ }

/-- The ramp from rest takes 1,000 ms and 500 steps (R149). -/
theorem test_maximum_speed_reached :
    after (.maximumSpeedReached 0) (onTheWay .speedingUp 0 0 1000 2000) (fun t =>
      (t.axis 0).position == 500 && (t.axis 0).run.map Run.kind == some .constant) = true ∧
    after (.maximumSpeedReached 0) (onTheWay .speedingUp 0 0 999 2000) (fun t => t == onTheWay .speedingUp 0 0 999 2000) =
      true := by decide +kernel

/-- A move of 1,000 steps slows at its half way, at 1,000 ms (R149). -/
theorem test_begin_to_slow :
    after (.beginToSlow 0) (onTheWay .constant 1000 500 1000 2000) (fun t =>
      (t.axis 0).position == 1500 && (t.axis 0).run.map Run.kind == some .slowing) = true := by decide +kernel

theorem test_direction_reversal :
    after (.directionReversal 0)
      (withAxis show0 fun a => { a with
        state := .moving, target := some 0, direction := .higher, profileMs := 1000, position := 100
        origin := 100, run := some (.slowFrom dir0.axes[0] .turning .higher (.whole 0) (.whole 100) (.whole 1000)) })
      (fun t => (t.axis 0).position == 600 && (t.axis 0).direction == .lower &&
        (t.axis 0).run.map Run.kind == some .speedingUp) = true := by decide +kernel

/-- The move of 9.8: 1,000 steps rising in 500 ms, 18,000 at full speed, slowing 1,000 steps from the target, 5,500 ms. -/
theorem test_worked_move :
    let rec' : AxisRecord := ⟨1, 2, 0, 65535, 4000, 8000, 10000, 20⟩
    let up := Run.toward rec' 30000 (.whole 0) (.whole 10000) (.whole 0) .lower
    let flat := up.1.following rec' up.2 30000
    let down := flat.1.following rec' flat.2 30000
    up.2 = .higher ∧ up.1.ending rec' .higher 30000 = .whole 500 ∧
      flat = (⟨.constant, .whole 500, .whole 11000, .whole 4000, .whole 0⟩, .higher) ∧
      flat.1.ending rec' .higher 30000 = .whole 5000 ∧
      down = (⟨.slowing, .whole 5000, .whole 29000, .whole 4000, .whole 30000⟩, .higher) ∧
      down.1.ending rec' .higher 30000 = .whole 5500 ∧
      (Run.slowFrom rec' .stopping .higher (.whole 1000) (.whole 13000) (.whole 4000)).rest = .whole 14000 := by decide +kernel

theorem test_step_pulse :
    after (.stepPulse 0) (onTheWay .speedingUp 0 0 100 2000) (fun t => (t.axis 0).position == 1) = true ∧
      after (.stepPulse 0) (onTheWay .speedingUp 0 0 1 2000) (fun t => (t.axis 0).position == 0) = true := by decide +kernel

theorem test_power_warning_inactive :
    after .powerWarningInactive { show0 with lines := { show0.lines with power := .active } } (fun t =>
      t.lines.power == .inactive && t.ctl == show0.ctl) = true := by decide +kernel

theorem test_stall_input_inactive :
    after (.stallInputInactive 11) { show0 with lines := { show0.lines with stall := filled 12 .active } } (fun t =>
      t.lines.stall.get 11 == .inactive && t.axes == show0.axes) = true := by decide +kernel

theorem test_home_switch_inactive :
    after (.homeSwitchInactive 0) { show0 with lines := { show0.lines with home := filled 12 .active } } (fun t =>
      t.lines.home.get 0 == .inactive && t.axes == show0.axes) = true := by decide +kernel

/-! ## States that meet the hypotheses of the statements -/

theorem head_of (s : State) (code : Byte) (params : List Byte) (kind : CueKind) (low : s.resetLow = false)
    (start : s.ctl.state ≠ .start) (is : CueKind.ofByte code = some kind) :
    (withCue s code params).headIs kind (cue0 params) [] := ⟨low, start, code, rfl, is⟩

/-- An idle show with every ms's samples given. -/
def still0 : State := { show0 with sampleCount := 24 }

theorem witness_StepOnEmptyQueue :
    show0.pending = [] ∧ show0.dueCommand = some .sampleInstant ∧ State.reset.pending = [] ∧
      State.reset.dueCommand = none ∧ State.reset.resetLow = true ∧ still0.pending = [] ∧ still0.dueCommand = none ∧
      still0.resetLow = false := by decide +kernel

theorem witness_ResetAndRelease : State.reset.resetLow = true ∧ (Instr.mark ≠ .hardwareReset ∧ Instr.mark ≠ .resetRelease) ∧
    State.reset = { State.reset with pending := [], lines := .unconnected } ∧
    ((State.reset.lineMoved (.visitorLineChange 23 .active)).lines.visitor.get 23 = .active ∧
      (State.reset.lineMoved .powerWarning).lines.power = .active ∧ State.reset.lineMoved .mark = State.reset) :=
  ⟨rfl, by decide, rfl, by decide +kernel⟩

/-- A state of SAFE with a request queued, an owned zone and a taken directory, in which every law holds. -/
def lawful : State :=
  let s := { inScene (show0.setZone 0 { show0.zone 0 with owner := some 0 }) .stopping [] with
    req := { show0.req with queue := [⟨1, .auto, 5, false, .waiting, false⟩] }
    lamp := { show0.lamp with houseLights := true }, report := { show0.report with attention := true } }
  (at' s .safe).setPin 0 (some ⟨⟨0x80000, 0x80080⟩, none⟩)

theorem witness_StepKeepsLaws :
    AttentionLaw lawful ∧ HouseLightsLaw lawful ∧ RequestLaw lawful ∧ SevereLaw lawful ∧ PinLaw lawful ∧
      BoundsLaw lawful ∧ PortLaw lawful ∧ RingLaw lawful ∧ OwnerLaw lawful ∧ DirectoryLaw lawful ∧
      lawful.ctl.state = .safe ∧ ∃ t, step lawful = .next t := by
  refine ⟨?_, ?_, ?_, ?_, ?_, ?_, ?_, ?_, ?_, ?_, rfl, ?_⟩
  · unfold AttentionLaw; decide +kernel
  · unfold HouseLightsLaw; decide +kernel
  · unfold RequestLaw; decide +kernel
  · intro b; cases b <;> decide +kernel
  · unfold PinLaw; decide +kernel
  · unfold BoundsLaw; decide +kernel
  · refine ⟨?_, by decide +kernel, by decide +kernel, by decide +kernel⟩
    rintro (h | ⟨v, h⟩ | ⟨k, h⟩ | h | h)
    · cases h
    · exact absurd h (by revert v; decide +kernel)
    · exact absurd h (by revert k; decide +kernel)
    · exact absurd rfl h
    · exact absurd rfl h
  · exact ⟨by decide +kernel, by decide +kernel, fun d h => by cases h; decide +kernel⟩
  · unfold OwnerLaw; decide +kernel
  · intro d h; cases h; exact dir0_passed
  · have h : ∀ o : Answer, (match o with | .next _ => true | _ => false) = true → ∃ t, o = .next t := by
      intro o h; cases o with
      | next t => exact ⟨t, rfl⟩
      | fault f => cases h
      | refused r => cases h
    exact h _ (by decide +kernel)

/-- Behind a busy port, and with another transaction held. -/
theorem witness_TransactionArrives :
    let busy := flying show0 (.script 0) .read 0x80000 64 []
    busy.resetLow = false ∧ busy.up.held = none ∧ busy.port.isSome = true ∧
      { show0 with up := ⟨some ⟨.read, 0, 4, .showClass, []⟩, none⟩ }.up.held.isSome = true := by decide +kernel

def fill0 : Transaction := ⟨.read, 0x1FFFC0, 64, .showClass, []⟩

theorem witness_FilledReadIsAnsweredWithZeros :
    show0.disposal fill0 = .fill ∧ show0.resetLow = false ∧ show0.up.held = none ∧ show0.port = none ∧
      (show0.forward fill0).raiseAll.urgentVoice = none := by decide +kernel

theorem witness_TransactionIsGrantedOnArrival :
    let read : Transaction := ⟨.read, 0x3FFFFC0, 64, .showClass, []⟩
    let wrong : Transaction := ⟨.read, 0x4000000, 1, .showClass, []⟩
    let barred : Transaction := ⟨.write, 0x1FFFFF, 1, .showClass, [0]⟩
    show0.resetLow = false ∧ show0.up.held = none ∧ show0.port = none ∧
      (show0.forward read).raiseAll.urgentVoice = none ∧ show0.disposal read = .pass ∧
      (show0.forward wrong).raiseAll.urgentVoice = none ∧ show0.disposal wrong = .malformed ∧
      (show0.forward barred).raiseAll.urgentVoice = none ∧ show0.disposal barred = .refuse 3 0 ∧
      (let locked := { show0 with dir := { show0.dir with locked := true } }
       let word : Transaction := ⟨.write, 0xFFC, 1, .serviceClass, [0]⟩
       let before : Transaction := ⟨.write, 0xFFB, 1, .serviceClass, [0]⟩
       (locked.forward word).raiseAll.urgentVoice = none ∧ locked.disposal word = .refuse 0 0 ∧ locked.dir.locked = true ∧
         State.covers 0xFFC 1 0xFFC = true ∧ locked.disposal before = .refuse 0 0 ∧ State.covers 0xFFB 1 0xFFC = false ∧
         show0.disposal ⟨.write, 0xFFF, 1, .showClass, [0]⟩ = .refuse 0 0 ∧ show0.dir.locked = false) := by decide +kernel

/-- Each clause at a boundary: the memory size, the last byte of the directory, the areas, the windows' last bytes. -/
theorem witness_DispositionSteps :
    let pinned := show0.setPin 2 (some ⟨⟨0x80000, 0x80001⟩, none⟩)
    let low := show0.setPin 2 (some ⟨⟨0xFFF, 0x1000⟩, none⟩)
    let locked := { show0 with dir := { show0.dir with locked := true } }
    let readOnly := { show0 with disp := { show0.disp with windows := put show0.disp.windows 3 ⟨0x300000, 0x301000, 3⟩ } }
    show0.disposal ⟨.read, 0x4000000, 1, .showClass, []⟩ = .malformed ∧
      show0.disposal ⟨.read, 0xFFF, 1, .showClass, []⟩ = .pass ∧
      show0.disposal ⟨.write, 0xFFF, 1, .showClass, [0]⟩ = .refuse 0 0 ∧
      locked.disposal ⟨.write, 0xFFF, 1, .serviceClass, [0]⟩ = .refuse 0 0 ∧
      low.disposal ⟨.write, 0xFFF, 1, .serviceClass, [0]⟩ = .refuse 2 2 ∧
      show0.disposal ⟨.write, 0xFFF, 1, .serviceClass, [0]⟩ = .pass ∧
      show0.areaTouched ⟨.write, 0x137FF, 1, .showClass, [0]⟩ = some 4 ∧
      show0.areaTouched ⟨.write, 0x80000, 1, .showClass, [0]⟩ = none ∧
      pinned.disposal ⟨.write, 0x80000, 1, .serviceClass, [0]⟩ = .refuse 2 2 ∧
      pinned.disposal ⟨.write, 0x80001, 1, .serviceClass, [0]⟩ = .pass ∧
      show0.disposal ⟨.write, 0x1FFFFF, 1, .serviceClass, [0]⟩ = .pass ∧
      show0.disposal ⟨.write, 0x1FFFFFF, 1, .showClass, [0]⟩ = .pass ∧
      show0.disposal ⟨.read, 0x1FFFFF, 1, .showClass, []⟩ = .fill ∧
      readOnly.disposal ⟨.write, 0x300FFF, 1, .showClass, [0]⟩ = .refuse 3 3 ∧
      readOnly.disposal ⟨.read, 0x300FFF, 1, .showClass, []⟩ = .pass := by decide +kernel

theorem witness_DispositionUnitLaw :
    DirectoryLaw show0 ∧ show0.disposal ⟨.write, 0x1000, 1, .showClass, [0]⟩ = .pass :=
  ⟨fun d h => by cases h; exact dir0_passed, by decide +kernel⟩

theorem witness_MemoryAnswersTheForwarded :
    let s := { flying show0 .forwarded .write 0x9000 2 [1, 2] with
      up := ⟨some ⟨.write, 0x9000, 2, .showClass, [1, 2]⟩, none⟩ }
    s.resetLow = false ∧ s.port = some ⟨.forwarded, .write, 0x9000, 2, [1, 2], true⟩ ∧ s.dir.taken = some dir0 ∧
      State.covers 0x9000 2 dir0.cueBase = false ∧ State.covers 0x9000 2 (dir0.reportBase + 4) = false ∧
      State.covers 0x9000 2 0xFFC = false ∧ s.up.held = some ⟨.write, 0x9000, 2, .showClass, [1, 2]⟩ ∧
      ([1, 2] : List Byte).length = 2 := by decide +kernel

/-- A producer value 16 ahead is accepted and one 17 ahead an overrun; a consumer value equal to the producer is accepted
and one past it is not. -/
theorem witness_RingWordsAreObserved :
    let s := { flying show0 .forwarded .write 0x10000 1 [17] with report := { show0.report with producer := 2, consumer := 1 } }
    s.resetLow = false ∧ s.port = some ⟨.forwarded, .write, 0x10000, 1, [17], true⟩ ∧ s.dir.taken = some dir0 ∧
      State.covers 0x10000 1 dir0.cueBase = true ∧ State.covers 0x10000 1 (dir0.reportBase + 4) = false ∧
      State.covers 0x11004 1 dir0.cueBase = false ∧ State.covers 0x11004 1 (dir0.reportBase + 4) = true ∧
      State.covers 0x10000 1 0xFFC = false ∧ State.covers 0x11004 1 0xFFC = false ∧
      (State.observed 0 0x10000 0x10000 [17]).setWidth 16 = (17 : Index) ∧ 16 < ((17 : Index) - s.cue.consumer).toNat ∧
      ((16 : Index) - s.cue.consumer).toNat ≤ 16 ∧
      ((2 : Index) - s.report.consumer).toNat ≤ (s.report.producer - s.report.consumer).toNat ∧
      (s.report.producer - s.report.consumer).toNat < ((3 : Index) - s.report.consumer).toNat ∧
      (s.report.producer - s.report.consumer).toNat < ((0 : Index) - s.report.consumer).toNat := by decide +kernel

theorem witness_ReloadRequestIsDecided :
    let s := flying show0 .forwarded .write 0xFFF 1 [1]
    s.resetLow = false ∧ s.port = some ⟨.forwarded, .write, 0xFFF, 1, [1], true⟩ ∧ State.covers 0xFFF 1 0xFFC = true ∧
      State.covers 0xFFF 1 dir0.cueBase = false ∧ State.covers 0xFFF 1 (dir0.reportBase + 4) = false ∧
      s.dir.locked = false ∧ s.ctl.state = .run ∧ s.ctl.restore = none ∧
      { s with ctl := { s.ctl with restore := some ⟨none, []⟩ } }.ctl.restore.isSome = true ∧ (at' s .hold).ctl.state = .hold ∧
      (at' s .safe).ctl.state = .safe ∧ (at' s .draining).ctl.state = .draining ∧
      ((∀ k, ((at' s .draining).slot k).state = .free) ∧ (∀ v, ((at' s .draining).voice v).state = .idle) ∧
        ∀ n, ((at' s .draining).axis n).state = .unhomed) ∧ ((inScene s .stopping []).slot 0).state ≠ .free := by
  decide +kernel

/-- A voice with 1,023 bytes buffered is urgent; a forwarded transaction waits for it, but for the fifth time not. -/
theorem witness_ArbiterRules :
    let hungry := show0.setVoice 0 { Voice.reset with
      state := .playing, clip := some ⟨0, 4096, 0, 100⟩, fetchPos := 1023, buffer := zeros 1023 }
    let urgent := { hungry with arb := { show0.arb with voice := put show0.arb.voice 0 (some ⟨1023, 1⟩) } }
    let waiting := { urgent with up := ⟨some fill0, none⟩, arb := { urgent.arb with forwarded := true, forwardedWait := 4 } }
    let cue := { show0 with arb := { show0.arb with lookups := [⟨.cueLine, 0x10040⟩] } }
    (flying show0 .page .write 0 64 []).port.isSome = true ∧ show0.port = none ∧
      waiting.arb.forwarded = true ∧ waiting.up.held = some fill0 ∧ waiting.arb.forwardedWait = 4 ∧
      urgent.urgentVoice = some (0, ⟨1023, 1⟩) ∧ urgent.arb.forwarded = false ∧ (show0.forward fill0).urgentVoice = none ∧
      (show0.forward fill0).arb.forwardedWait ≠ 4 ∧ cue.urgentVoice = none ∧
      (State.classesAfter cue.arb.classPtr).take 3 = [.voice, .script, .lookup] ∧ (cue.grantClass .voice).isNone = true ∧
      (cue.grantClass .script).isNone = true ∧ (cue.grantClass .lookup).isSome = true := by decide +kernel

/-- Each requester at the edge of its conditions: a cue queue of 7, a voice's buffer with 64 bytes of room and with 63, a
step buffer with 4 places and with 3, a dirty page. -/
theorem witness_ArbiterRules_raised :
    let voiced := fun n : Nat => withVoice show0 .playing (zeros n)
    let stepped := fun n : Nat => inScene show0 .loading (List.replicate n [])
    let cues := { show0 with cue := ⟨8, 7, 0, List.replicate 7 (.failed 0), false⟩ }
    let restoring := { show0 with ctl := { show0.ctl with restore := some ⟨none, []⟩ } }
    let dirty := { show0 with fault := { show0.fault with dirty := true } }
    ({ show0 with dir := { show0.dir with load := .loading 5 } } : State).directoryWant = some 320 ∧
      cues.cueWant = some 0x10100 ∧ { cues with cue := { cues.cue with accepted := 16, fetched := 15 } }.cueWant = some 0x10200 ∧ (withVoice show0 .lookup []).groupWant 0 = some 0x14040 ∧
      restoring.restoreWant = some 0x137C0 ∧ (voiced 4032).clipWant 0 = some ⟨0x300008, 56⟩ ∧ (voiced 4033).clipWant 0 = none ∧
      (stepped 4).scriptWant 0 = some ⟨0x80040, 64⟩ ∧ (stepped 5).scriptWant 0 = none ∧
      dirty.raiseAll.arb.writebacks = [.page] ∧ dirty.raiseAll.fault.writer = some 0 ∧ dirty.dir.taken = some dir0 ∧
      State.reset.dir.taken = none := by decide +kernel

/-- The picks go round behind their pointers: of voices 1 and 6 waiting, 6 comes first after 2, and 1 after 6. -/
theorem witness_ArbiterRules_picks :
    let read : ReadRequest := ⟨0x300000, 64⟩
    let two := put (put (filled 8 none) 1 (some read)) 6 (some read)
    let s := { show0 with arb := { show0.arb with
      voice := two, script := two, voicePtr := 2, slotPtr := 6, lookups := [⟨.cueLine, 64⟩, ⟨.restore, 0⟩], writebacks := [.page] } }
    let hungry := fun v : Fin 8 => s.setVoice v { Voice.reset with state := .playing, clip := some ⟨0, 4096, 0, 100⟩ }
    (s.grantClass .voice).map (fun t => t.arb.voicePtr) = some 6 ∧ (s.grantClass .script).map (fun t => t.arb.slotPtr) = some 1 ∧
      (s.grantClass .lookup).map (fun t => t.port.map InFlight.purpose) = some (some .cueLine) ∧
      (s.grantClass .writeback).map (fun t => t.port.map InFlight.addr) = some (some 0x13000) ∧
      s.urgentVoice = none ∧ (hungry 1).urgentVoice = some (1, read) ∧ s.dir.taken = some dir0 := by decide +kernel

/-- Lines 62 and 63 of a good and of a bad image, before any directory is taken. -/
def loading0 (n : Nat) (image : List Byte) : State :=
  { flying (at' show0 .start) .directory .read (64 * n) 64 [] with dir := ⟨none, image.take (64 * n), .loading n, false, 0⟩ }

theorem witness_DirectoryLoadGoesOnOrFails :
    let s := loading0 63 (image0 ++ zeros 8)
    s.resetLow = false ∧ s.port = some ⟨.directory, .read, 4032, 64, [], true⟩ ∧ s.dir.load = .loading 63 ∧
      (loading0 62 image0).dir.load = .loading 62 ∧ (zeros 64).length = 64 ∧
      ((firstFailure (s.dir.image ++ zeros 64)).map Check.word).isSome = true ∧ s.ctl.state = .start ∧
      s.dir.taken = none := by decide +kernel

/-- The first take restarts both rings; one over a directory of the same rings restarts neither. That this image passes its
checks is `test_image_passes`. A HALTING axis and one of a disabled record at a take, and a leaving of START with SAFE
pending. -/
theorem witness_DirectoryIsTaken :
    let s := loading0 63 sealed0
    let again := { s with dir := { s.dir with taken := some dir0 } }
    let start := at' show0 .start
    s.resetLow = false ∧ s.port = some ⟨.directory, .read, 4032, 64, [], true⟩ ∧ s.dir.load = .loading 63 ∧
      (sealed0.drop 4032).length = 64 ∧ s.dir.image ++ sealed0.drop 4032 = sealed0 ∧
      ((directoryOf sealed0).cueBase, (directoryOf sealed0).cueSlots, (directoryOf sealed0).reportBase,
        (directoryOf sealed0).reportSlots) = (dir0.cueBase, dir0.cueSlots, dir0.reportBase, dir0.reportSlots) ∧
      s.dir.taken = none ∧ again.dir.taken.isSome = true ∧ ((directoryOf sealed0).axes.get 0).isEnabled = false ∧
      (again.axisRecord 0).isEnabled = true ∧ (dir0.axes.get 11).isEnabled = true ∧
      ((withAxis again fun a => { a with state := .halting }).axis 0).state = .halting ∧ start.ctl.state = .start ∧
      start.dir.taken.isSome = true ∧ start.ctl.safePending = false ∧
      { start with ctl := { start.ctl with safePending := true } }.ctl.safePending = true ∧
      (let full := { again with cue := ⟨2, 2, 0, [.failed 0, .failed 1], false⟩, report := { again.report with lost := 254 } }
       (full.freePort.takeBlocks (directoryOf sealed0)).report.lost = 254 ∧
         (full.freePort.takeBlocks { dir0 with cueBase := 0x20000 }).report.lost = 255) := by decide +kernel

theorem witness_CueLineEntersCues :
    let s := { flying show0 .cueLine .read 0x10040 64 [] with cue := ⟨1, 0, 0, [], false⟩ }
    s.resetLow = false ∧ s.port = some ⟨.cueLine, .read, 0x10040, 64, [], true⟩ ∧ s.dir.taken = some dir0 ∧
      (flying s .cueLine .read 0x10040 64 [] false).port = some ⟨.cueLine, .read, 0x10040, 64, [], false⟩ ∧
      (zeros 64).length = 64 := by decide +kernel

theorem witness_IndexWritesEnd :
    (flying show0 (.consumer 0xFFFF) .write 0x10004 4 (zeros 4)).port =
        some ⟨.consumer 0xFFFF, .write, 0x10004, 4, zeros 4, true⟩ ∧
      (flying show0 (.producer 0) .write 0x11000 4 (zeros 4)).port =
        some ⟨.producer 0, .write, 0x11000, 4, zeros 4, true⟩ ∧
      ((flying show0 (.consumer 0) .write 0x10004 4 (zeros 4) false).port.map InFlight.live,
        (flying show0 (.producer 0) .write 0x11000 4 (zeros 4) false).port.map InFlight.live) = (some false, some false) ∧
      show0.resetLow = false := by decide +kernel

theorem witness_RecordsAreWritten :
    let s := { flying show0 (.record 0) .write 0x11040 32 (zeros 32) with
      report := ⟨[⟨.showState .start .run, 0⟩], 0, 0, 0, false, false⟩ }
    s.report.queue = [⟨.showState .start .run, 0⟩] ∧ s.resetLow = false ∧
      s.port = some ⟨.record 0, .write, 0x11040, 32, zeros 32, true⟩ ∧
      (flying s (.record 0) .write 0x11040 32 (zeros 32) false).port.map InFlight.live = some false := by decide +kernel

theorem witness_CueIsTaken :
    let s := withCue show0 16 []
    s.resetLow = false ∧ s.ctl.state ≠ .start ∧ s.cue.queue = [.cue 0 16 5 (padTo 28 [])] ∧
      CueKind.ofByte 16 = some .mark ∧ CueKind.ofByte 1 = some .requestScene := by decide +kernel

/-- Each parameter at the first value outside its range. -/
theorem witness_CueUnitAnswersItself :
    CueKind.ofByte 0 = none ∧ CueKind.ofByte 17 = none ∧ CueKind.ofByte 16 = some .mark ∧
      ({ show0 with cue := ⟨1, 1, 0, [.failed 0], false⟩ } : State).cue.queue = [.failed 0] ∧
      32 ≤ paramByte (padTo 28 [32]) 4 ∧ 8 ≤ paramByte (padTo 28 [8]) 4 ∧ 4 ≤ paramByte (padTo 28 [0, 4]) 5 ∧
      127 < paramByte (padTo 28 [128]) 4 ∧ paramByte (padTo 28 []) 5 = 0 ∧
      128 < paramByte (padTo 28 [127, 2]) 4 + paramByte (padTo 28 [127, 2]) 5 ∧
      1000 < param16 (padTo 28 [0, 0, 0xE9, 3]) 6 ∧ 60000 < param16 (padTo 28 [0, 0, 0, 0, 0x61, 0xEA]) 8 ∧
      2 ≤ paramByte (padTo 28 [2]) 4 ∧ 12 ≤ paramByte (padTo 28 [0xFE]) 4 ∧ paramByte (padTo 28 [0xFE]) 4 ≠ 0xFF ∧
      5 ≤ paramByte (padTo 28 [5]) 4 := by decide +kernel

theorem witness_ZoneCuesAct :
    (withCue show0 6 [7, 1]).headIs .setLanguage (cue0 [7, 1]) [] ∧
      (withCue show0 4 [7]).headIs .closeZone (cue0 [7]) [] ∧ (withCue (at' show0 .hold) 5 [7]).headIs .openZone (cue0 [7]) [] ∧
      paramByte (cue0 [7, 1]).params 4 = (7 : Fin 8).val ∧ paramByte (cue0 [7, 1]).params 5 = 1 ∧
      (show0.zoneRecord 7).isEnabled = true ∧ 1 < show0.languageCount ∧ show0.languageCount ≤ 2 ∧
      (State.reset.zoneRecord 7).isEnabled = false ∧ (show0.zone 7).owner = none ∧
      (lawful.zone 0).owner = some 0 ∧ lawful.ctl.state ≠ .run :=
  ⟨head_of _ _ _ _ rfl (by decide) rfl, head_of _ _ _ _ rfl (by decide) rfl, head_of _ _ _ _ rfl (by decide) rfl,
    by decide +kernel⟩

/-- A channel of each kind: unowned, owned, being released. -/
theorem witness_LampCuesAct :
    let p : List Byte := [127, 1, 0xE8, 3, 0x60, 0xEA]
    let owned := show0.setChannel 127 { show0.channel 127 with owner := some 0 }
    let leaving := show0.setChannel 127
      { show0.channel 127 with owner := some 0, releasing := true, fade := some (.begun 1 2 3 0) }
    (withCue show0 7 p).headIs .setBaseLevel (cue0 p) [] ∧ (withCue show0 8 [1]).headIs .houseLights (cue0 [1]) [] ∧
      (withCue (at' show0 .safe) 8 [0]).headIs .houseLights (cue0 [0]) [] ∧
      (BaseLevel.mk 127 1 1000 60000 = ⟨paramByte (cue0 p).params 4, paramByte (cue0 p).params 5,
        param16 (cue0 p).params 6, param16 (cue0 p).params 8⟩ ∧
      (show0.channel 127).owner = none ∧ (owned.channel 127).owner.isSome = true ∧ (owned.channel 127).releasing = false ∧
      (leaving.channel 127).releasing = true ∧ (leaving.channel 127).fade = some (.begun 1 2 3 0) ∧
      paramByte (cue0 [1]).params 4 = 1 ∧ paramByte (cue0 [0]).params 4 = 0) :=
  ⟨head_of _ _ _ _ rfl (by decide) rfl, head_of _ _ _ _ rfl (by decide) rfl, head_of _ _ _ _ rfl (by decide) rfl,
    by decide +kernel⟩

theorem witness_HomeAxisHomes :
    (withCue show0 9 [11]).headIs .homeAxis (cue0 [11]) [] ∧ (withCue show0 9 [0xFF]).headIs .homeAxis (cue0 [0xFF]) [] ∧
      (withCue (at' show0 .hold) 9 [11]).headIs .homeAxis (cue0 [11]) [] ∧
      (paramByte (cue0 [11]).params 4 = (11 : Fin 12).val ∧ paramByte (cue0 [0xFF]).params 4 = 0xFF ∧
      (show0.axisRecord 11).isEnabled = true ∧ show0.mayHome 11 = true ∧ lawful.mayHome 0 = false ∧
      (State.reset.axisRecord 11).isEnabled = false ∧ show0.lines.home.get 11 = .inactive ∧
      (show0.axisRecord 11).zone = (3 : Fin 8).val) :=
  ⟨head_of _ _ _ _ rfl (by decide) rfl, head_of _ _ _ _ rfl (by decide) rfl, head_of _ _ _ _ rfl (by decide) rfl,
    by decide +kernel⟩

theorem witness_HoldAndRelease :
    (withCue show0 10 []).headIs .holdShow (cue0 []) [] ∧ (withCue (at' show0 .hold) 11 []).headIs .releaseShow (cue0 []) [] ∧
      (withCue (at' show0 .safe) 10 []).headIs .holdShow (cue0 []) [] ∧ show0.ctl.state = .run ∧
      (at' show0 .safe).ctl.state ≠ .run :=
  ⟨head_of _ _ _ _ rfl (by decide) rfl, head_of _ _ _ _ rfl (by decide) rfl, head_of _ _ _ _ rfl (by decide) rfl, rfl,
    by decide⟩

theorem witness_SafeIsEnteredAndLeft :
    (withCue (at' show0 .draining) 13 []).headIs .enterSafe (cue0 []) [] ∧
      (withCue (at' show0 .safe) 13 []).headIs .enterSafe (cue0 []) [] ∧
      (withCue (at' show0 .safe) 14 []).headIs .leaveSafe (cue0 []) [] ∧
      (∀ b : Bank, (show0.bank b).isSevere = false) ∧ (∃ b : Bank, ((show0.log .stall []).bank b).isSevere = true) ∧
      show0.ctl.restore = none :=
  ⟨head_of _ _ _ _ rfl (by decide) rfl, head_of _ _ _ _ rfl (by decide) rfl, head_of _ _ _ _ rfl (by decide) rfl,
    fun b => by cases b <;> decide +kernel, ⟨.motion, by decide +kernel⟩, rfl⟩

theorem witness_FaultIsCleared :
    (withCue show0 12 [4]).headIs .clearFault (cue0 [4]) [] ∧ paramByte (cue0 [4]).params 4 = Bank.motion.place.val :=
  ⟨head_of _ _ _ _ rfl (by decide) rfl, by decide⟩

/-- Admission's three answers, and a scene that holds a slot and has a request. -/
theorem witness_SceneCuesAct :
    (withCue show0 1 [0]).headIs .requestScene (cue0 [0]) [] ∧ (withCue lawful 2 [1]).headIs .stopScene (cue0 [1]) [] ∧
      (withCue lawful 3 []).headIs .stopAll (cue0 []) [] ∧
      (paramByte (cue0 [0]).params 4 = (0 : Fin 32).val ∧ show0.admission 0 (.cue 5) = .queued false ∧
      (at' lawful .run).admission 1 (.cue 5) = .merged ∧ show0.admission 31 (.cue 5) = .turnedAway .range (some .disabled) ∧
      (at' show0 .hold).admission 0 (.cue 5) = .queued false ∧ (show0.sceneRecord 1).isEnabled = true ∧
      (show0.sceneRecord 31).isEnabled = false ∧ ∀ k, (show0.slot k).state = .free) :=
  ⟨head_of _ _ _ _ rfl (by decide) rfl, head_of _ _ _ _ rfl (by decide) rfl, head_of _ _ _ _ rfl (by decide) rfl,
    by decide +kernel⟩

/-- A bank with logging off, an empty bank, a bank of lower and one of equal severity; a SEVERE record, and each show state
the trigger finds. -/
theorem witness_FaultsAreLogged :
    let s := show0.log .reloadIgnored [5]
    let quiet := { show0 with dir := { show0.dir with taken := some { dir0 with policies := filled 5 ⟨0, 4⟩ } } }
    (FaultCode.reloadIgnored.severity ≠ .severe ∧ (quiet.policy .showBank).logEnable ≠ 1) ∧
      (show0.bank .showBank).valid = false ∧ (s.bank .showBank).valid = true ∧ (s.bank .showBank).severity = some .notice ∧
      Severity.notice.code < FaultCode.cueFetchFailed.severity.code ∧
      FaultCode.powerWarning.severity.code ≤ Severity.notice.code ∧
      ((show0.log .stall []).bank .motion).isSevere = true ∧
      ([.start, .unconfigured, .run, .hold, .draining, .safe].all fun x => (at' show0 x).ctl.state == x) = true ∧
      show0.ctl.restore = none ∧
      ({ show0 with ctl := { show0.ctl with restore := some ⟨none, []⟩ } } : State).ctl.restore.isSome = true := by
  decide +kernel

theorem witness_GuardsTripAndSettle :
    let s := show0.setZone 7 { show0.zone 7 with guard := .settling, settle := some 0 }
    let high := { s with lines := { s.lines with guard := filled 8 .active } }
    let spare := { show0 with dir := { show0.dir with taken := none } }
    s.resetLow = false ∧ s.lines.guard.get 7 = .inactive ∧ (s.zoneRecord 7).isEnabled = true ∧
      (s.zoneRecord 7).guardInput = (7 : Fin 8).val ∧
      (∀ y, ((s.zoneRecord y).isEnabled = true ∧ (s.zoneRecord y).guardInput = (7 : Fin 8).val) → y = 7) ∧
      (show0.zone 7).guard = .clear ∧ (s.zone 7).guard = .settling ∧
      (show0.setZone 7 { show0.zone 7 with guard := .tripped }).guardZone 7 = some 7 ∧ high.lines.guard.get 7 = .active ∧
      (∀ z, ¬ ((spare.zoneRecord z).isEnabled = true ∧ (spare.zoneRecord z).guardInput = (7 : Fin 8).val)) ∧
      (s.zone 7).settle = some 0 ∧ reached 0 s.showTime = true ∧ s.zoneAxes 7 = [7] ∧ spare.zoneAxes 7 = [] := by
  decide +kernel

theorem witness_VisitorLevelsAreTaken :
    let s := show0.setInput 0 ⟨.active, .inactive, some 0⟩
    let l := show0.setInput 1 ⟨.active, .inactive, some 0⟩
    s.resetLow = false ∧ s.lines.visitor.get 0 ≠ .active ∧ s.dir.taken = some dir0 ∧ State.reset.dir.taken = none ∧
      (s.input 0).deadline = some 0 ∧ reached 0 s.showTime = true ∧ (s.input 0).raw = .active ∧ (s.inputRecord 0).kind = 1 ∧
      (s.inputRecord 0).scene = (0 : Fin 32).val ∧ (l.input 1).deadline = some 0 ∧ (l.input 1).raw = .active ∧
      (l.inputRecord 1).kind = 3 ∧ (l.inputRecord 1).zone = (0 : Fin 8).val ∧
      (show0.setInput 0 ⟨.inactive, .active, some 0⟩).input 0 = ⟨.inactive, .active, some 0⟩ ∧
      (show0.inputRecord 23).kind = 0 := by decide +kernel

/-- Every way of the admission table. -/
theorem witness_RequestsAreAdmittedAndExpire :
    let closed := show0.setZone 0 { show0.zone 0 with closed := true }
    let cooling := { show0 with req := { show0.req with cooldown := filled 32 (some 1) } }
    let queued := { show0 with req := { show0.req with queue := [⟨0, .auto, 0, false, .waiting, false⟩] } }
    let full := { show0 with req := { show0.req with queue := List.replicate 16 ⟨5, .auto, 0, false, .waiting, false⟩ } }
    [show0.admission 31 .auto, closed.admission 0 .auto, (at' show0 .draining).admission 0 .auto,
        (at' show0 .safe).admission 0 .auto, cooling.admission 0 (.trigger 23), cooling.admission 0 .auto,
        queued.admission 0 .auto, (inScene show0 .held []).admission 0 .auto, (inScene show0 .stopping []).admission 0 .auto,
        full.admission 0 .auto] =
      [.turnedAway .range (some .disabled), .turnedAway .zoneClosed (some .zoneClosed),
        .turnedAway .reloading (some .reloading), .turnedAway .wrongState (some .wrongState), .turnedAway .busy none,
        .queued false, .merged, .turnedAway .busy none, .queued false, .turnedAway .queueFull (some .queueFull)] ∧
      show0.resetLow = false ∧ cooling.req.cooldown.get 0 = some 1 ∧ reached 1 (1 : Time) = true ∧
      queued.req.queue = [] ++ ⟨0, .auto, 0, false, .waiting, false⟩ :: [] := by decide +kernel

theorem witness_ZonesAreClaimed :
    (0 : Fin 8) ∈ (show0.sceneRecord 0).zones ∧ (1 : Fin 8) ∉ (show0.sceneRecord 0).zones ∧ (lawful.slot 0).state = .stopping ∧
      lawful.woundDown 0 = true := by decide +kernel

/-- One request for each way: restarted, blocked, started, pre-empting (scene 1 of class VISITOR over an AMBIENT slot),
left waiting. -/
theorem witness_ScanJudgesWaiting :
    let ask := fun (s : State) (q : List Request) => { s with req := { s.req with queue := q } }
    let r : Request := ⟨1, .auto, 0, false, .waiting, false⟩
    let again : Request := ⟨0, .auto, 0, false, .waiting, true⟩
    let taken := (inScene show0 .running []).setZone 0 { show0.zone 0 with owner := some 0 }
    let weak := taken.setSlot 0 { taken.slot 0 with holding := some ⟨0, .ambient, 0⟩ }
    let kind := fun (s : State) (n : Fin 32) =>
      let e := perform (.judgeWaiting n) s
      (e.1.req.queue.map Request.scene, e.1.req.queue.map Request.state, e.2)
    kind (ask taken [again]) 0 = ([], [], [.restart 0]) ∧
      kind (ask show0 [⟨0, .auto, 0, false, .waiting, false⟩, r]) 1 = ([0, 1], [.waiting, .waiting], []) ∧
      kind (ask show0 [r]) 1 = ([], [], []) ∧ kind (ask weak [r]) 1 = ([1], [.preempting], [.stopSlot 0 .preempted]) ∧
      kind (ask taken [r]) 1 = ([1], [.waiting], []) := by decide +kernel

/-- A PREEMPTING request whose zones are unowned and one whose zones are not; a scan outside RUN, during a scan and else; an
auto-start scene that calls for a request; two requests to remove. -/
theorem witness_ScanJudgesWaiting_scan :
    let r : Request := ⟨0, .auto, 0, false, .preempting, false⟩
    let s := { show0 with req := { show0.req with queue := [r, ⟨1, .auto, 0, true, .waiting, false⟩] } }
    let owned := (inScene s .stopping []).setZone 0 { s.zone 0 with owner := some 0 }
    let busy := { s with req := { s.req with underWay := true, scanPending := true, owed := 1 } }
    let ambient : Directory := { dir0 with scenes := tabulate fun n => { dir0.scenes.get n with flags := 3 } }
    let auto := { show0 with dir := { show0.dir with taken := some ambient } }
    ((perform (.judgePreempting 0) s).1.slot 0).state = .loading ∧ perform (.judgePreempting 0) owned = (owned, []) ∧
      (perform .askScan s).2 = [.judgePreempting 0, .waitingPhase] ∧ perform .askScan (at' s .hold) = (at' s .hold, []) ∧
      (perform .waitingPhase s).2 = [.judgeWaiting 1, .endScan] ∧ (perform .askScan busy).2 = [] ∧
      (perform .endScan busy).2 = [.askScan, .reRequest] ∧ (perform .endScan s).1.req.queue = [r] ∧
      (perform .reRequest busy).1.req.owed = 2 ∧ (perform (.autoRequest 0) auto).2 = [.askScan] ∧
      (perform (.autoRequest 0) show0).2 = [] ∧ (s.req.queue.map Request.scene).Nodup ∧
      (s.dropAll .safe).report.queue.map QueuedRecord.record =
        [.requestDropped 0 .auto .safe, .requestDropped 1 .auto .safe] := by decide +kernel

/-- Lines that go on loading, that end a load in RUN and in HOLD, and one for a HELD slot. -/
theorem witness_ScriptLinesArrive :
    let s := inScene show0 .loading []
    let first := flying (s.setSlot 0 { s.slot 0 with next := 0, fetch := 0 }) (.script 0) .read 0x80000 64 []
    let last := flying s (.script 0) .read 0x80040 64 []
    first.resetLow = false ∧ first.port = some ⟨.script 0, .read, 0x80000, 64, [], true⟩ ∧ (zeros 64).length = 64 ∧
      (first.slot 0).state = .loading ∧ min 2 ((first.slot 0).lines + 1) < 2 ∧ (first.slot 0).fetch + 4 < 8 ∧
      (first.slotScene 0).steps = 8 ∧ (last.slot 0).fetch + 4 = 8 ∧ (last.slot 0).holding = some ⟨0, .visitor, 0⟩ ∧
      (at' last .hold).ctl.state = .hold ∧ ((inScene show0 .held []).slot 0).state = .held ∧
      (flying s (.script 0) .read 0x80040 64 [] false).port = some ⟨.script 0, .read, 0x80040, 64, [], false⟩ := by
  decide +kernel

theorem step_of (bytes : List Byte) (kind : Option StepKind) (is : Step.kind ⟨padTo 16 bytes⟩ = kind)
    (now : Step.offset ⟨padTo 16 bytes⟩ ≤ 1000) :
    (inScene show0 .running [bytes]).stepIs 0 kind ⟨padTo 16 bytes⟩ [] :=
  have h : (inScene show0 .running [bytes]).slot 0 = { Slot.reset with
      state := .running, holding := some ⟨0, .visitor, 0⟩, clock := 1000, next := 1, fetch := 4
      buffer := [⟨padTo 16 bytes⟩] } := put_get_same ..
  have steps : (1 : Nat) < (show0.sceneRecord 0).steps := by decide +kernel
  ⟨rfl, by rw [h], by rw [h]; rfl, by simp only [State.slotScene, h]; exact steps, by rw [h], by rw [h]; exact now, is⟩

/-- A step of each kind that passes its checks, at the ends of their ranges, and steps that do not. -/
theorem witness_StepsAct :
    let lamp := step0 1 [0, 127, 1, 0xE8, 3, 0x60, 0xEA]
    let narrate := step0 2 [0, 0, 0, 3, 0]
    (inScene show0 .running [lamp]).stepIs 0 (some .lamp) ⟨padTo 16 lamp⟩ [] ∧
      (inScene show0 .running [lamp]).stepPasses 0 ⟨padTo 16 lamp⟩ ∧
      (inScene show0 .running [narrate]).stepIs 0 (some .narrate) ⟨padTo 16 narrate⟩ [] ∧
      (inScene show0 .running [narrate]).stepPasses 0 ⟨padTo 16 narrate⟩ ∧
      (inScene show0 .running [step0 8 []]).stepIs 0 none ⟨padTo 16 (step0 8 [])⟩ [] ∧
      ¬ (inScene show0 .running [step0 8 []]).stepPasses 0 ⟨padTo 16 (step0 8 [])⟩ ∧
      ((inScene show0 .running [lamp]).slot 0).holding = some ⟨0, .visitor, 0⟩ ∧
      (((show0.voice 0).state = .idle ∧ ((withVoice show0 .lookup []).voice 0).state = .lookup ∧
        ((withVoice show0 .paused []).voice 0).state.hasClip = true) ∧
        ((withVoice show0 .stopping []).voice 0).state = .stopping) := by
  refine ⟨step_of _ _ (by decide) (by decide), ?_, step_of _ _ (by decide) (by decide), ?_,
    step_of _ _ (by decide) (by decide), ?_, by decide +kernel, by decide +kernel⟩
  · refine ⟨by decide, ?_⟩
    have h : Step.kind ⟨padTo 16 (step0 1 [0, 127, 1, 0xE8, 3, 0x60, 0xEA])⟩ = some .lamp := by decide
    simp only [h]
    refine ⟨by decide, by decide, by decide, by decide, by decide, fun c h1 _ => ⟨0, ?_, by decide +kernel⟩⟩
    revert c; decide +kernel
  · refine ⟨by decide, ?_⟩
    have h : Step.kind ⟨padTo 16 (step0 2 [0, 0, 0, 3, 0])⟩ = some .narrate := by decide
    simp only [h]
    exact ⟨by decide +kernel, by decide +kernel⟩
  · rintro ⟨_, h⟩
    have e : Step.kind ⟨padTo 16 (step0 8 [])⟩ = none := by decide
    simp only [e] at h

/-- A step of each kind that fails a check of its own, and the place of the check (R99, log 31). -/
theorem witness_StepsAct_fails :
    let s := inScene show0 .running []
    let check := fun bytes => s.failingCheck (s.slotScene 0) (s.slot 0).next ⟨padTo 16 bytes⟩
    [check (step0 1 [0, 128, 1, 0, 0, 0, 0]), check (step0 2 [0, 0, 0, 4, 0]), check (step0 3 [0, 0, 0, 0x11, 0x27]),
        check (step0 4 [0, 0, 0, 0, 0, 0, 0, 2]), check ([0x81, 0xEE, 0x36, 0, 5]), check (step0 6 [0, 1]),
        check ([0x81, 0xEE, 0x36, 0, 7]), check (step0 0 []), check (step0 5 [])] =
      [some 2, some 3, some 3, some 7, some 1, some 2, some 1, some 0, none] := by decide +kernel

/-- A MOVE to the end of the travel, and an axis in each state. -/
theorem witness_MoveStepActs :
    let move := step0 3 [0, 0, 0, 0x10, 0x27]
    (inScene show0 .running [move]).stepIs 0 (some .move) ⟨padTo 16 move⟩ [] ∧
      (inScene show0 .running [move]).stepPasses 0 ⟨padTo 16 move⟩ ∧ Step.subject ⟨padTo 16 move⟩ = (0 : Fin 12).val ∧
      (∀ x : AxisState, ((withAxis show0 fun a => { a with state := x }).syncedAxis 0).state = x) ∧
      ((withAxis show0 id).syncedAxis 0).homed = true ∧ (show0.syncedAxis 0).homed = false ∧
      ((withAxis show0 fun a => { a with guardReason := true }).syncedAxis 0).hasReason = true ∧
      show0.lines.stall.get 0 = .inactive ∧ State.reset.lines.stall.get 0 = .active := by
  refine ⟨step_of _ _ (by decide) (by decide), ?_, by decide, fun x => by cases x <;> decide +kernel, by decide +kernel,
    by decide +kernel, by decide +kernel, by decide +kernel, by decide +kernel⟩
  refine ⟨by decide, ?_⟩
  have h : Step.kind ⟨padTo 16 (step0 3 [0, 0, 0, 0x10, 0x27])⟩ = some .move := by decide
  simp only [h]
  refine ⟨⟨0, by decide, by decide +kernel, by decide +kernel⟩, fun n hn => ?_⟩
  revert n; decide +kernel

/-- A WAIT whose condition holds and one whose does not; LOOPs of count 0, 1 and 2, with no record, with a record of their own
with 0, 1 and 2 remaining, and with another step's. -/
theorem witness_WaitsAndLoops :
    let wait := step0 4 [0, 0, 0, 0xC0, 0x27, 0x09, 0, 1]
    let loop := fun n : Byte => step0 6 [0, 0, 0, n, 0, 0, 0, 7]
    let out := (let s := inScene show0 .running []; s.setSlot 0 { s.slot 0 with next := 8 })
    (inScene show0 .running [wait]).stepIs 0 (some .wait) ⟨padTo 16 wait⟩ [] ∧
      (inScene show0 .running [wait]).stepPasses 0 ⟨padTo 16 wait⟩ ∧
      (∀ n : Byte, (inScene show0 .running [loop n]).stepIs 0 (some .loop) ⟨padTo 16 (loop n)⟩ []) ∧
      (inScene show0 .running [loop 2]).stepPasses 0 ⟨padTo 16 (loop 2)⟩ ∧
      (Step.condition ⟨padTo 16 wait⟩ = some (.voice 0) ∧ (inScene show0 .running [wait]).conditionHolds (.voice 0) = true ∧
      (withVoice show0 .playing []).conditionHolds (.voice 0) = false ∧ Step.loopCount ⟨padTo 16 (loop 0)⟩ = 0 ∧
      Step.loopCount ⟨padTo 16 (loop 1)⟩ = 1 ∧ Step.loopCount ⟨padTo 16 (loop 2)⟩ = 2 ∧
      out.resetLow = false ∧ (out.slot 0).state = .running ∧ (out.slot 0).wait = none ∧
      (out.slotScene 0).steps ≤ (out.slot 0).next) ∧
      ∀ l : LoopRecord, l ∈ [⟨1, 0⟩, ⟨1, 1⟩, ⟨1, 2⟩, ⟨0, 3⟩] →
        let s := inScene show0 .running [loop 2]
        let own := s.setSlot 0 { s.slot 0 with loop := some l }
        own.stepIs 0 (some .loop) ⟨padTo 16 (loop 2)⟩ [] ∧ own.stepPasses 0 ⟨padTo 16 (loop 2)⟩ ∧
          (own.slot 0).loop = some l ∧ (l.index = (own.slot 0).next ↔ l.index = 1) := by
  refine ⟨step_of _ _ (by decide) (by decide), ?_, fun n => step_of _ _ rfl (by simp [Step.offset, step0, padTo, word32At, word16At, byteAt]), ?_, by decide +kernel, ?_⟩
  · refine ⟨by decide, ?_⟩
    have h : Step.kind ⟨padTo 16 (step0 4 [0, 0, 0, 0xC0, 0x27, 0x09, 0, 1])⟩ = some .wait := by decide
    simp only [h]
    exact ⟨by decide, fun _ => by decide +kernel, fun e => absurd e (by decide), fun e => absurd e (by decide), by decide,
      by decide⟩
  · refine ⟨by decide, ?_⟩
    have h : Step.kind ⟨padTo 16 (step0 6 [0, 0, 0, 2, 0, 0, 0, 7])⟩ = some .loop := by decide
    simp only [h]
    decide +kernel
  · have h : Step.kind ⟨padTo 16 (step0 6 [0, 0, 0, 2, 0, 0, 0, 7])⟩ = some .loop := by decide
    intro l hl
    simp only [List.mem_cons, List.not_mem_nil, or_false] at hl
    rcases hl with rfl | rfl | rfl | rfl <;>
      exact ⟨⟨by decide, by decide +kernel, by decide +kernel, by decide +kernel, by decide +kernel, by decide +kernel, h⟩,
        ⟨by decide, by simp only [h]; decide +kernel⟩, by decide +kernel, by decide +kernel⟩

theorem witness_MarkAndEndSteps :
    (inScene show0 .running [step0 5 []]).stepIs 0 (some .mark) ⟨padTo 16 (step0 5 [])⟩ [] ∧
      (inScene show0 .running [step0 7 []]).stepIs 0 (some .finish) ⟨padTo 16 (step0 7 [])⟩ [] ∧
      Step.offset ⟨padTo 16 (step0 5 [])⟩ ≤ 3600000 ∧
      ((inScene show0 .running [step0 7 []]).slot 0).holding = some ⟨0, .visitor, 0⟩ ∧
      ((inScene show0 .stopping []).slot 0).state = .stopping :=
  ⟨step_of _ _ (by decide) (by decide), step_of _ _ (by decide) (by decide), by decide, by decide +kernel,
    by decide +kernel⟩

/-- A slot in each state; a wound-down one; one that waits on a condition that holds and on one that does not; a channel at
the end of its release fade. -/
theorem witness_SlotsStopAndWindDown :
    (∀ x : SlotState, ((inScene show0 x []).slot 0).state = x) ∧
      (let s := inScene show0 .stopping []
       let t := s.setSlot 0 { s.slot 0 with endReason := some .completed }
       (t.slot 0).holding = some ⟨0, .visitor, 0⟩ ∧ (t.slot 0).endReason = some .completed ∧ t.woundDown 0 = true ∧
         (withVoice t .playing []).woundDown 0 = false) ∧
      (let s := inScene show0 .running []
       let wait := fun c => s.setSlot 0 { s.slot 0 with wait := some ⟨c, none, false⟩ }
       let left := s.setChannel 5 { s.channel 5 with owner := some 0, releasing := true, fade := none }
       ((wait (.voice 0)).slot 0).wait = some ⟨.voice 0, none, false⟩ ∧ (wait (.voice 0)).conditionHolds (.voice 0) = true ∧
         (wait (.input 0 .active)).conditionHolds (.input 0 .active) = false ∧ (s.slot 0).wait = none ∧
         (left.channel 5).releasing = true ∧ (left.channel 5).fade = none ∧ (s.channel 5).releasing = false) :=
  ⟨fun x => by cases x <;> decide +kernel, by decide +kernel, by decide +kernel⟩

/-- A frame due with a fade that ends in it, one that goes on and one that is a release fade. -/
theorem witness_LampFrameIsSent :
    let s := { show0 with showTime := 25, lamp := { show0.lamp with nextFrame := some 25 } }
    let t := s.setChannel 0 { s.channel 0 with fade := some (.begun 0 9 25 0) }
    let u := s.setChannel 0 { s.channel 0 with fade := some (.begun 0 9 25 0), releasing := true, owner := some 0 }
    s.resetLow = false ∧ s.lamp.nextFrame = some 25 ∧ reached 25 s.showTime = true ∧
      (∀ c, ¬ ((s.channel c).releasing = true)) ∧ (t.channel 0).fade = some ⟨0, 9, 25, 0, some 0⟩ ∧
      (u.channel 0).releasing = true ∧ (25 : Nat) ≤ ((Fade.begun 0 9 25 0).updated 25).elapsed ∧
      ((Fade.begun 0 9 26 0).updated 25).elapsed < 26 := by decide +kernel

/-- A record with its own variant, one with variant 0 alone, one with none; a voice in each state a line reaches. -/
theorem witness_VoicesReadClips :
    let one := padTo 64 (padTo 16 [0, 0, 0x30, 0, 2, 0, 0, 0, 100])
    let two := padTo 64 (padTo 16 [] ++ [0xFE, 0xFF, 0x2F, 0, 4, 0, 0, 0, 100])
    show0.resetLow = false ∧ variantOf one 0 = some ⟨0x300000, 2, 0x300000, 100⟩ ∧ variantOf one 1 = none ∧
      variantOf two 1 = some ⟨0x2FFFFE, 4, 0x200000, 100⟩ ∧ (0x200000 + 1048576 < 0x2FFFFE + 4) ∧
      variantOf two 0 = none ∧ variantOf (zeros 64) 1 = none ∧ one.length = 64 ∧
      (flying (withVoice show0 .lookup []) (.clipGroup 0) .read 0x14040 64 []).port =
        some ⟨.clipGroup 0, .read, 0x14040, 64, [], true⟩ ∧ ((withVoice show0 .lookup []).voice 0).state = .lookup ∧
      ((withVoice show0 .fetching (zeros 2047)).voice 0).buffer.length + 1 = 2048 ∧
      ((withVoice show0 .starved (zeros 511)).voice 0).buffer.length + 1 = 512 ∧
      ((withVoice show0 .playing []).voice 0).playedLength = 4096 ∧ (show0.voice 0).state = .idle ∧
      (let x := (withVoice show0 .paused (zeros 511)).voice 0
       let y := ((withVoice show0 .paused []).setVoice 0 { x with resumeTo := some .starved }).voice 0
       x.state = .paused ∧ x.fetchPos + 1 ≠ x.playedLength ∧ x.resumeTo ≠ some .starved ∧ y.resumeTo = some .starved ∧
         y.buffer.length + 1 = 512 ∧ y.buffer.length < 512) ∧
      ((withVoice show0 .playing []).voice 0).state ≠ .idle ∧ ((withVoice show0 .playing []).voice 0).owner = some 0 := by
  decide +kernel

theorem witness_SamplesAndCuts :
    let s := withVoice show0 .stopping (zeros 2)
    let cut := s.setVoice 0 { s.voice 0 with cutDeadline := some 0, pendingGroup := some 3 }
    show0.resetLow = false ∧ show0.sampleCount < 24 ∧ { show0 with sampleCount := 23 }.sampleCount < 24 ∧
      (∀ v, (show0.voice v).state ≠ .draining) ∧ 2 ≤ ((withVoice show0 .playing (zeros 2)).voice 0).buffer.length ∧
      ((withVoice show0 .playing (zeros 1)).voice 0).buffer.length < 2 ∧
      ((withVoice show0 .playing (zeros 1)).voice 0).starvedReported = false ∧
      ((withVoice show0 .playing (zeros 1)).voice 0).clip = some ⟨0x300000, 4096, 0x300000, 50⟩ ∧
      (cut.voice 0).state = .stopping ∧ (cut.voice 0).cutDeadline = some 0 ∧ reached 0 cut.showTime = true ∧
      (cut.voice 0).pendingGroup = some 3 ∧ ((s.setVoice 0 { s.voice 0 with cutDeadline := some 0 }).voice 0).pendingGroup =
        none ∧ (cut.voice 0).muted = false ∧ ((cut.setVoice 0 { cut.voice 0 with muted := true }).voice 0).muted = true ∧
      ([.idle, .lookup, .fetching, .playing, .starved, .paused, .draining, .stopping].all fun x =>
        ((withVoice show0 x (zeros 2)).voice 0).state == x) = true ∧
      (flying s (.clipLine 0) .read 0x300008 56 []).port = some ⟨.clipLine 0, .read, 0x300008, 56, [], true⟩ := by
  decide +kernel

theorem witness_HomingEvents :
    let s := withAxis show0 fun a => { a with state := .homing, owner := .cue, homed := false, elapsed := 20000 }
    let t := withAxis s fun a => { a with state := .homing, owner := .slot 0, pendingMove := some 0 }
    s.resetLow = false ∧ s.lines.home.get 0 = .inactive ∧ (s.axis 0).state = .homing ∧ (s.axis 0).pendingMove = none ∧
      (t.axis 0).pendingMove = some 0 ∧ (show0.axis 0).state ≠ .homing ∧
      ({ s with lines := { s.lines with home := filled 12 .active } } : State).lines.home.get 0 = .active ∧
      4 * (s.axisRecord 0).moveTimeLimit ≤ (s.axis 0).elapsed ∧ (s.axis 0).owner = .cue ∧ (t.axis 0).owner = .slot 0 ∧
      (show0.axis 0).owner = .nobody ∧
      ([AxisState.unhomed, .homing, .idle, .moving, .suspending, .suspended, .halting, .faulted].all fun x =>
        ((withAxis show0 fun a => { a with state := x }).syncedAxis 0).state == x) = true := by decide +kernel

/-- A wait whose timeout has run out, its slot RUNNING or HELD, with CONTINUE and with STOP. -/
theorem witness_WaitsAndLoops_timeout :
    ∀ x ∈ [SlotState.running, .held], ∀ stops : Bool,
      let s := (let s := inScene show0 x []; s.setSlot 0 { s.slot 0 with wait := some ⟨.voice 0, some 0, stops⟩ })
      s.resetLow = false ∧ (s.slot 0).state = x ∧ (s.slot 0).wait = some ⟨.voice 0, some 0, stops⟩ ∧
        (s.slot 0).holding = some ⟨0, .visitor, 0⟩ ∧
        after (.waitTimeout 0) s (fun t => (t.slot 0).wait == none &&
          ((t.slot 0).state == .free) == stops) = true := by decide +kernel

theorem witness_MotionsEnd :
    let axis := fun f => withAxis show0 f
    let arrived := axis fun a => { a with state := .moving, position := 9, target := some 9 }
    let late := axis fun a => { a with state := .moving, elapsed := 5000, target := some 9, owner := .slot 0 }
    let halting := axis fun a => { a with state := .halting, pendingMove := some 9 }
    let slow := axis fun a => { a with state := .suspending, resumeTo := some .moving }
    let held := axis fun a => { a with state := .suspended, suspendedSince := some 0, suspendedTotal := 60000 }
    let still := fun s : State => ((s.syncedAxis 0).speed (s.axisRecord 0)).sign ≤ 0
    arrived.resetLow = false ∧ (arrived.syncedAxis 0).state = .moving ∧ (arrived.syncedAxis 0).target = some 9 ∧
      (arrived.syncedAxis 0).position = 9 ∧ still arrived ∧ (late.axisRecord 0).moveTimeLimit ≤ (late.syncedAxis 0).elapsed ∧
      (late.syncedAxis 0).owner = .slot 0 ∧ (halting.syncedAxis 0).state = .halting ∧ still halting ∧
      (halting.syncedAxis 0).pendingMove = some 9 ∧ (halting.syncedAxis 0).timedOut = false ∧
      ((axis fun a => { a with state := .halting, timedOut := true }).syncedAxis 0).timedOut = true ∧
      (slow.syncedAxis 0).state = .suspending ∧ still slow ∧ (held.axis 0).state = .suspended ∧
      (held.axis 0).suspendedSince = some 0 ∧
      1000 * (held.axisRecord 0).suspendLimit ≤ (held.axis 0).suspendedTotal + (held.showTime - 0).toNat := by decide +kernel

theorem witness_StallsAndProfile :
    let top := onTheWay .speedingUp 0 0 1000 2000
    let short := onTheWay .speedingUp 0 0 1000 998
    let turning := onTheWay .turning 1000 0 1000 0
    let ended := fun s : State => s.partOver 0 fun _ _ _ => true
    top.resetLow = false ∧ top.lines.stall.get 0 = .inactive ∧ State.reset.lines.stall.get 0 = .active ∧
      (State.reset.axisRecord 0).isEnabled = false ∧ (top.axisRecord 0).isEnabled = true ∧ (top.axis 0).state = .moving ∧
      (top.axis 0).run = some ⟨.speedingUp, .whole 0, .whole 0, .whole 0, .whole 2000⟩ ∧ ended top = true ∧
      top.partOver 0 State.reachesTop = true ∧ short.partOver 0 State.beginsSlowing = true ∧
      turning.partOver 0 State.turnsBack = true ∧ (top.axis 0).position ≠ (top.axis 0).dueAt (top.axisRecord 0) ∧
      (top.syncedAxis 0).breaches (top.axisRecord 0) = true ∧ (show0.syncedAxis 0).breaches (show0.axisRecord 0) = false ∧
      ((onTheWay .constant 500 0 0 2000).syncedAxis 0).breaches (show0.axisRecord 0) = false ∧
      ((withAxis show0 fun a => { a with
        state := .suspended, resumeTo := some .homing, suspendedSince := some 0, guardReason := true }).syncedAxis 0).resumeTo =
        some .homing ∧
      (let still := withAxis show0 fun a => { a with state := .moving, target := some 0, run := some (.restAt (.whole 0)) }
       let held := withAxis show0 fun a => { a with
         state := .suspending, resumeTo := some .moving, target := some 9, holdReason := true, run := some (.restAt (.whole 0)) }
       let slower := fun s : State => (((s.syncedAxis 0).slowed (s.axisRecord 0)).speed (s.axisRecord 0)).sign
       0 < slower (onTheWay .constant 500 0 0 2000) ∧ slower still ≤ 0 ∧ (still.syncedAxis 0).state = .moving ∧
         (held.syncedAxis 0).guardReason = false ∧ (held.syncedAxis 0).state = .suspending ∧
         (held.syncedAxis 0).resumeTo = some .moving ∧ (held.syncedAxis 0).target = some 9) := by decide +kernel

/-- The record of dir0's axes is in the range of R30; a place of 10.5 steps, a speed of 2.5 step/s and 500 ms are fractions;
whole speeds and places for the ramp's top; a place behind and one ahead of its origin. -/
theorem witness_StallsAndProfile_numbers :
    let rec' := show0.axisRecord 0
    (100 ≤ rec'.acceleration ∧ rec'.acceleration ≤ 200000 ∧ 1 ≤ rec'.maxSpeed ∧ rec'.maxSpeed ≤ 20000) ∧
      (Exact.frac 21 2).Is (21 / 2) ∧ (Exact.frac 5 2).Is (5 / 2) ∧ (Exact.whole 500).Is 500 ∧
      (reachesMaximum rec' ⟨.speedingUp, .whole 0, .whole 0, .whole 0, .whole 0⟩ .higher 1000 = true ∧
        reachesMaximum rec' ⟨.speedingUp, .whole 0, .whole 0, .whole 0, .whole 0⟩ .higher 999 = false) ∧
      (((onTheWay .constant 500 3 10 2000).axis 0).place rec' = .whole 8 ∧
        ((onTheWay .constant 500 3 10 2000).axis 0).state ≠ .homing) := by
  refine ⟨by decide +kernel, ⟨21, 2, rfl, by decide, by norm_num⟩, ⟨5, 2, rfl, by decide, by norm_num⟩,
    ⟨500, 1, rfl, by decide, by norm_num⟩, by decide +kernel, by decide +kernel⟩

/-- A stall input found active at a take, on an axis that no stall has failed and on one that a stall has. -/
theorem witness_StallsAndProfile_at_take :
    let s := { show0 with lines := { show0.lines with stall := filled 12 .active } }
    let failed := withAxis s fun a => { a with state := .faulted, lastResult := some .stall, owner := .slot 0 }
    (s.axisRecord 0).isEnabled = true ∧ s.lines.stall.get 0 = .active ∧ (s.axis 0).state = .unhomed ∧
      (perform (.stallAtTake 0) s).2 = [.stopStalled 0] ∧ perform (.stallAtTake 0) failed = (failed, []) ∧
      (perform (.stopStalled 0) failed).2 = [.stopSlot 0 .axisFault, .giveUpAxis 0] ∧
      (perform (.stallAtTake 0) (s.log .stall [])).2 = [.safeTrigger, .stopStalled 0] := by decide +kernel

theorem witness_PowerPageAndSnapshot :
    let writing := { show0 with ctl := { show0.ctl with snapshot := some ⟨[], .hold, 7, 15⟩ } }
    show0.resetLow = false ∧ show0.lines.power = .inactive ∧ show0.ctl.state = .run ∧ (at' show0 .draining).ctl.state = .draining ∧
      (at' show0 .start).ctl.state = .start ∧
      ({ show0 with lines := { show0.lines with power := .active } } : State).lines.power = .active ∧
      (flying show0 .page .write 0x13000 64 []).port = some ⟨.page, .write, 0x13000, 64, [], true⟩ ∧
      ({ show0 with fault := { show0.fault with writer := some 2 } } : State).fault.writer = some 2 ∧
      (flying writing .snapshot .write 0x13400 64 []).port = some ⟨.snapshot, .write, 0x13400, 64, [], true⟩ ∧
      writing.ctl.snapshot = some ⟨[], .hold, 7, 15⟩ := by decide +kernel

/-- A disregarded Fault Page line, and the image of a snapshot of a slot that holds a scene (R184). -/
theorem witness_PowerPageAndSnapshot_image :
    let s := inScene show0 .held []
    let image := ((perform (.startSnapshot .hold) s).1.ctl.snapshot.map Snapshot.image).getD []
    (flying show0 .page .write 0x13000 64 [] false).port = some ⟨.page, .write, 0x13000, 64, [], false⟩ ∧
      slice image 0x040 16 = [3, 0, 1, 0, 0xE8, 3, 0, 0, 0xFF, 0xFF, 0, 0, 0, 0, 0, 0] ∧
      slice image 0 16 = [0x49, 0x56, 0x53, 0x53, 7, 0, 0, 0, 0, 0, 0, 0, 0, 0, 0, 0] := by decide +kernel

/-- Each line of the Fault Page, and the first, a middle, the last line and the last write of a snapshot. -/
theorem witness_PowerPageAndSnapshot_writes :
    (∀ l : Fin 4, { show0 with fault := { show0.fault with writer := some l.val } }.fault.writer = some l.val) ∧
      ∀ due ∈ [0, 1, 15, 16], (zeros 960).length = 960 ∧
        { show0 with ctl := { show0.ctl with snapshot := some ⟨zeros 960, .hold, 7, due⟩ } }.ctl.snapshot =
          some ⟨zeros 960, .hold, 7, due⟩ := by decide +kernel

theorem witness_RestoreIsRead :
    (withCue show0 15 []).headIs .restoreShow (cue0 []) [] ∧ (withCue (at' show0 .hold) 15 []).headIs .restoreShow (cue0 []) [] ∧
      (((∀ k, (show0.slot k).state = .free) ∧ (∀ v, (show0.voice v).state = .idle) ∧ show0.req.queue = []) ∧
      show0.ctl.snapshot = none ∧ show0.ctl.restore = none ∧ (lawful.slot 0).state ≠ .free ∧
      (flying show0 .restore .read 0x13780 64 []).port = some ⟨.restore, .read, 0x13780, 64, [], true⟩ ∧
      word32At (markerLine (some 7)) 0 = 0x3C5AA5C3 ∧ word32At (markerLine (some 7)) 4 = show0.dir.sequence.toNat ∧
      (zeros 64).length = 64) :=
  ⟨head_of _ _ _ _ rfl (by decide) rfl, head_of _ _ _ _ rfl (by decide) rfl, by decide +kernel⟩

/-- A saved slot that is restored, one whose entry is faulty, and one that is not restored (R115, R187). -/
theorem witness_RestoreIsRead_slots :
    let lines := padTo 960 (padTo 0x40 [] ++ [2, 1, 9, 0] ++ zeros 12 ++ [4, 0])
    let one := State.restoreOne lines ⟨show0, []⟩ 0
    savedSlot lines 0 = ⟨2, 1, 9, 0, some ⟨0, 0⟩⟩ ∧ (savedSlot lines 1).state = 4 ∧ one.slots = [0] ∧
      (one.state.slot 0).state = .loading ∧ one.state.restoredTask lines 0 = .faultRestored 0 ∧
      (State.restoreOne lines one 1).slots = [0] ∧ (show0.sceneRecord 1).isEnabled = true := by decide +kernel

end Sys2Proof.Tests
end

section
/-! PROOFS: show memory traffic (file 01), the part at reset and the laws that every step keeps. Both laws go through
`step_keeps`: what of the law holds between the changes of an event, and that the event's end restores the whole. -/

namespace Sys2Proof.Machine

/-! ## The tables at reset, place by place -/

@[simp] theorem zone_reset (z : Fin 8) : State.reset.zone z = .reset := filled_get _ _

@[simp] theorem slot_reset (k : Fin 8) : State.reset.slot k = .reset := filled_get _ _

@[simp] theorem voice_reset (v : Fin 8) : State.reset.voice v = .reset := filled_get _ _

@[simp] theorem axis_reset (n : Fin 12) : State.reset.axis n = .reset := filled_get _ _

@[simp] theorem pins_reset (i : Fin 16) : State.reset.pins.get i = none := filled_get _ _

@[simp] theorem bank_reset (b : Bank) : State.reset.bank b = .invalid := filled_get _ _

/-- An axis with no motion under way stands (R148). -/
theorem speed_reset (rec : AxisRecord) : (Axis.reset.speed rec).sign = 0 := rfl

/-- Settles O4, unit by unit. -/
theorem resetValues : Obligations.ResetValues := by
  unfold Obligations.ResetValues
  intro r
  refine ⟨rfl, rfl, rfl, rfl, rfl, fun v => ⟨?requestOfVoice, ?requestOfSlot⟩, rfl, rfl, rfl, rfl, rfl, rfl, rfl, rfl, rfl,
    rfl, rfl, rfl, rfl, rfl, rfl, fun w => ?window, rfl, rfl, zone_reset, fun i => ?input, rfl, rfl, fun n => ?cooldown,
    slot_reset, fun c => ?channel, rfl, rfl, fun k => ?frame, voice_reset, fun n => ⟨axis_reset n, ?speed⟩, pins_reset,
    bank_reset, rfl, rfl, rfl⟩
  case speed => rw [axis_reset]; exact speed_reset _
  case window => exact congrArg WindowRecord.kind (filled_get _ _)
  all_goals exact filled_get _ _

/-! ## Each law at reset -/

/-- Nothing that would assert the attention output stands at reset (R55). -/
theorem attentionLaw_reset : AttentionLaw .reset := by
  have quiet : State.reset.fault.alarmed = false := by
    simp [FaultUnit.alarmed, State.reset, FaultUnit.reset, BankRecord.isSevere, BankRecord.invalid]
  unfold AttentionLaw State.wantsAttention
  rw [quiet]; rfl

theorem houseLightsLaw_reset : HouseLightsLaw .reset := fun safe => by simp [State.reset, ShowControl.reset] at safe

theorem requestLaw_reset : RequestLaw .reset := by simp [RequestLaw, State.reset, RequestUnit.reset]

theorem severeLaw_reset : SevereLaw .reset := fun b severe => by
  simp [BankRecord.isSevere, BankRecord.invalid] at severe

theorem pinLaw_reset : PinLaw .reset := by simp [PinLaw, Slot.reset, Voice.reset, VoiceState.holdsPin]

theorem boundsLaw_reset : BoundsLaw .reset := by
  simp [BoundsLaw, State.reset, ReportUnit.reset, CueUnit.reset, Arbiter.reset]

theorem not_requestWaits_reset : ¬ State.reset.requestWaits := by simp [State.requestWaits, State.reset, Arbiter.reset]

theorem portInside_reset : PortInside .reset := by simp [PortInside, State.reset, Arbiter.reset, State.carries]

theorem portLaw_reset : PortLaw .reset := ⟨fun waits => absurd waits not_requestWaits_reset, portInside_reset⟩

theorem ringLaw_reset : RingLaw .reset := by
  simp [RingLaw, State.reset, Arbiter.reset, State.carries, DirectoryUnit.reset]

theorem ownerLaw_reset : OwnerLaw .reset := fun z k owned => by simp [Zone.reset] at owned

theorem directoryLaw_reset : DirectoryLaw .reset := fun d taken => by simp [State.reset, DirectoryUnit.reset] at taken

/-- Settles O16, law by law. -/
theorem lawsHoldAtReset : Obligations.LawsHoldAtReset :=
  ⟨attentionLaw_reset, houseLightsLaw_reset, requestLaw_reset, severeLaw_reset, pinLaw_reset, boundsLaw_reset,
    portLaw_reset, ringLaw_reset, ownerLaw_reset, directoryLaw_reset⟩

/-! ## Two laws over a step -/

/-- Neither the queues nor the Arbiter nor the ports move with the show time alone. -/
theorem tick_frame (s : State) : s.tick.report = s.report ∧ s.tick.cue = s.cue ∧ s.tick.arb = s.arb ∧
    s.tick.port = s.port ∧ s.tick.up = s.up ∧ s.tick.dir = s.dir := by
  unfold State.tick; split <;> exact ⟨rfl, rfl, rfl, rfl, rfl, rfl⟩

theorem BoundsLaw.tick {s : State} (h : BoundsLaw s) : BoundsLaw s.tick := by
  obtain ⟨report, cue, arb, -⟩ := tick_frame s
  unfold BoundsLaw; rwa [report, cue, arb]

theorem PortLaw.tick {s : State} (h : PortLaw s) : PortLaw s.tick := by
  obtain ⟨-, -, arb, port, up, dir⟩ := tick_frame s
  unfold PortLaw State.requestWaits State.carries at *; rwa [arb, port, up, dir]

/-- Settles O11: `BoundsLaw` holds throughout an event, at its end and at reset. -/
theorem stepKeepsBoundsLaw : Obligations.StepKeepsBoundsLaw := by
  intro s t h e
  exact step_keeps BoundsLaw BoundsLaw (pre := fun _ => id) (change := Change.bounds) (settle := BoundsLaw.settle)
    (lines := fun _ _ => id) (pending := fun _ _ => id) (reset := fun _ => boundsLaw_reset)
    (tick := fun _ => BoundsLaw.tick) h e

/-- Settles O12: `PortInside` holds throughout an event, and the grants at its end restore `PortLaw`. -/
theorem stepKeepsPortLaw : Obligations.StepKeepsPortLaw := by
  intro s t h e
  exact step_keeps PortLaw PortInside (pre := fun _ => PortLaw.inside) (change := Change.port) (settle := PortInside.settle)
    (lines := fun _ _ => id) (pending := fun _ _ => id) (reset := fun _ => portLaw_reset)
    (tick := fun _ => PortLaw.tick) h e

/-- Settles O17: the command's meaning is to leave the part as it is. -/
theorem withdrawnWriteChangesNothing : Obligations.WithdrawnWriteChangesNothing := fun _ _ _ _ _ => rfl

end Sys2Proof.Machine
end

section
/-! PROOFS: the Port Arbiter (R20 to R22). The requests that are raised in one formula (`raiseAll_eq`), each requester's
conditions, the pick of a cyclic order (`firstWaiting_after_iff`), and the rules of a grant. -/

namespace Sys2Proof.Machine

namespace State

/-! ## What waits and what flies, as predicates -/

theorem lookupWaits_iff (s : State) (who : Looker) : s.lookupWaits who = true ↔ ∃ l ∈ s.arb.lookups, l.who = who := by
  simp [lookupWaits]

theorem writeWaits_iff (s : State) (who : Writer) : s.writeWaits who = true ↔ who ∈ s.arb.writebacks := by
  simp [writeWaits]

theorem carries_iff (s : State) (p : Purpose → Bool) : s.carries p = true ↔ ∃ f, s.port = some f ∧ p f.purpose = true := by
  unfold carries; cases s.port <;> simp

theorem carriesLive_iff (s : State) (p : Purpose → Bool) :
    s.carriesLive p = true ↔ ∃ f, s.port = some f ∧ f.live = true ∧ p f.purpose = true := by
  unfold carriesLive; cases s.port <;> simp

/-! ## The LOOKUP order -/

/-- The part with more requests behind the LOOKUP order. -/
def joinLookups (s : State) (l : List Lookup) : State :=
  { s with arb := { s.arb with lookups := s.arb.lookups ++ l } }

/-- What a requester that wants a line adds to the LOOKUP order. -/
def asked (who : Looker) (want : Option Nat) : List Lookup := (want.map fun a => (⟨who, a⟩ : Lookup)).toList

theorem who_of_mem_asked {who : Looker} {want : Option Nat} {l : Lookup} (h : l ∈ asked who want) : l.who = who := by
  cases want <;> simp [asked] at h
  rw [h]

theorem raiseLookup_eq (s : State) (who : Looker) (want : Option Nat) :
    s.raiseLookup who want = s.joinLookups (asked who want) := by
  cases want with
  | none => simp [raiseLookup, joinLookups, asked]
  | some a => rfl

theorem joinLookups_joinLookups (s : State) (l m : List Lookup) :
    (s.joinLookups l).joinLookups m = s.joinLookups (l ++ m) := by simp [joinLookups]

theorem joinLookups_nil (s : State) : s.joinLookups [] = s := by simp [joinLookups]

/-- Requests of other requesters do not tell whether one waits. -/
theorem lookupWaits_joinLookups (s : State) {l : List Lookup} {who : Looker} (h : ∀ x ∈ l, x.who ≠ who) :
    (s.joinLookups l).lookupWaits who = s.lookupWaits who := by
  have none : l.any (fun x => x.who == who) = false := by simpa using h
  simp [lookupWaits, joinLookups, none]

theorem cueWant_joinLookups (s : State) {l : List Lookup} (h : ∀ x ∈ l, x.who ≠ .cueLine) :
    (s.joinLookups l).cueWant = s.cueWant := by
  unfold cueWant; rw [s.lookupWaits_joinLookups h]; rfl

theorem groupWant_joinLookups (s : State) {l : List Lookup} (v : Fin 8) (h : ∀ x ∈ l, x.who ≠ .clipGroup v) :
    (s.joinLookups l).groupWant v = s.groupWant v := by
  unfold groupWant; rw [s.lookupWaits_joinLookups h]; rfl

theorem restoreWant_joinLookups (s : State) {l : List Lookup} (h : ∀ x ∈ l, x.who ≠ .restore) :
    (s.joinLookups l).restoreWant = s.restoreWant := by
  unfold restoreWant; rw [s.lookupWaits_joinLookups h]; rfl

/-- What the voices add, each once and in their order. -/
theorem foldl_raiseGroups (l : List (Fin 8)) (once : l.Nodup) (s : State) :
    l.foldl (fun t v => t.raiseLookup (.clipGroup v) (t.groupWant v)) s =
      s.joinLookups (l.flatMap fun v => asked (.clipGroup v) (s.groupWant v)) := by
  induction l generalizing s with
  | nil => exact (joinLookups_nil s).symm
  | cons v l ih =>
    obtain ⟨new, once⟩ := List.nodup_cons.1 once
    have same : (l.flatMap fun w => asked (.clipGroup w) ((s.joinLookups (asked (.clipGroup v) (s.groupWant v))).groupWant w)) =
        l.flatMap fun w => asked (.clipGroup w) (s.groupWant w) :=
      List.flatMap_congr fun w hw => by
        rw [s.groupWant_joinLookups w fun x hx => by
          rw [who_of_mem_asked hx]; rintro e; cases e; exact new hw]
    rw [List.foldl_cons, raiseLookup_eq, ih once, same, joinLookups_joinLookups, List.flatMap_cons]

/-- The LOOKUP requests that are raised, as 1.6 lists the requesters. -/
def lookupsDue (s : State) : List Lookup :=
  asked .directory s.directoryWant ++ asked .cueLine s.cueWant ++
    ((fins 8).flatMap fun v => asked (.clipGroup v) (s.groupWant v)) ++ asked .restore s.restoreWant

theorem nodup_fins (n : Nat) : (fins n).Nodup := by
  rw [List.nodup_iff_injective_get]
  intro i j h
  simp only [List.get_eq_getElem, fins_getElem, Fin.mk.injEq] at h
  exact Fin.ext h

theorem raiseLookups_eq (s : State) : s.raiseLookups = s.joinLookups s.lookupsDue := by
  have cue : (s.joinLookups (asked .directory s.directoryWant)).cueWant = s.cueWant :=
    s.cueWant_joinLookups fun x hx => by rw [who_of_mem_asked hx]; nofun
  have group : ∀ v, (s.joinLookups (asked .directory s.directoryWant ++ asked .cueLine s.cueWant)).groupWant v =
      s.groupWant v := fun v => s.groupWant_joinLookups v fun x hx => by
    rcases List.mem_append.1 hx with hx | hx <;> (rw [who_of_mem_asked hx]; nofun)
  have restore : (s.joinLookups (asked .directory s.directoryWant ++ asked .cueLine s.cueWant ++
      (fins 8).flatMap fun v => asked (.clipGroup v) (s.groupWant v))).restoreWant = s.restoreWant :=
    s.restoreWant_joinLookups fun x hx => by
      rcases List.mem_append.1 hx with hx | hx
      · rcases List.mem_append.1 hx with hx | hx <;> (rw [who_of_mem_asked hx]; nofun)
      · obtain ⟨v, -, hx⟩ := List.mem_flatMap.1 hx
        rw [who_of_mem_asked hx]; nofun
  unfold raiseLookups
  dsimp only
  rw [raiseLookup_eq s .directory, raiseLookup_eq _ .cueLine, cue, joinLookups_joinLookups, foldl_raiseGroups _ (nodup_fins 8),
    joinLookups_joinLookups, funext fun v => congrArg (asked (.clipGroup v)) (group v), raiseLookup_eq _ .restore, restore,
    joinLookups_joinLookups, lookupsDue]

/-! ## The WRITEBACK order -/

/-- The part with more requests behind the WRITEBACK order. -/
def joinWrites (s : State) (l : List Writer) : State :=
  { s with arb := { s.arb with writebacks := s.arb.writebacks ++ l } }

/-- Is a WRITEBACK requester's request raised? A Fault Page pass that is due has begun by then (R183). -/
def writeDue (s : State) : Writer → Bool
  | .record => s.recordDue
  | .producer => s.producerDue
  | .consumer => s.consumerDue
  | .page =>
    s.dir.taken.isSome && (s.fault.writer.isSome || s.pageBegins) && !s.writeWaits .page && !s.carries Purpose.isPage
  | .snapshot => s.snapshotDue

/-- The WRITEBACK requests that are raised, as 1.6 lists the requesters. -/
def writesDue (s : State) : List Writer := [.record, .producer, .consumer, .page, .snapshot].filter s.writeDue

/-- The Fault Unit once a Fault Page pass that is due has begun (R183). -/
def faultBegun (s : State) : FaultUnit :=
  if s.pageBegins then { s.fault with dirty := false, writer := some 0 } else s.fault

theorem mem_writesDue (s : State) (w : Writer) : w ∈ s.writesDue ↔ s.writeDue w = true := by
  unfold writesDue
  rw [List.mem_filter]
  cases w <;> simp

theorem raiseWrite_eq (s : State) (w : Writer) (due : Bool) : s.raiseWrite w due = s.joinWrites ([w].filter fun _ => due) := by
  cases due <;> simp [raiseWrite, joinWrites, addWrite]

theorem joinWrites_joinWrites (s : State) (l m : List Writer) : (s.joinWrites l).joinWrites m = s.joinWrites (l ++ m) := by
  simp [joinWrites]

theorem writeWaits_joinWrites (s : State) {l : List Writer} {w : Writer} (h : w ∉ l) :
    (s.joinWrites l).writeWaits w = s.writeWaits w := by
  rw [Bool.eq_iff_iff, writeWaits_iff, writeWaits_iff]
  simp [joinWrites, h]

theorem beginPage_joinWrites (s : State) (l : List Writer) : (s.joinWrites l).beginPage = s.beginPage.joinWrites l := by
  have same : (s.joinWrites l).pageBegins = s.pageBegins := rfl
  unfold beginPage; rw [same]; split <;> rfl

theorem beginPage_eq (s : State) : s.beginPage = { s with fault := s.faultBegun } := by
  unfold beginPage faultBegun; split <;> rfl

/-- The Fault Page line that is due once a pass may have begun. -/
theorem pageDue_beginPage (s : State) : s.beginPage.pageDue = s.writeDue .page := by
  rw [beginPage_eq]
  unfold pageDue writeDue faultBegun
  cases s.pageBegins with
  | false => rw [Bool.or_false]; rfl
  | true => rw [Bool.or_true]; rfl

theorem producerDue_joinWrites (s : State) {l : List Writer} (h : .producer ∉ l) :
    (s.joinWrites l).producerDue = s.producerDue := by
  unfold producerDue; rw [s.writeWaits_joinWrites h]; rfl

theorem consumerDue_joinWrites (s : State) {l : List Writer} (h : .consumer ∉ l) :
    (s.joinWrites l).consumerDue = s.consumerDue := by
  unfold consumerDue; rw [s.writeWaits_joinWrites h]; rfl

theorem pageDue_joinWrites (s : State) {l : List Writer} (h : .page ∉ l) : (s.joinWrites l).pageDue = s.pageDue := by
  unfold pageDue; rw [s.writeWaits_joinWrites h]; rfl

theorem snapshotDue_joinWrites (s : State) {l : List Writer} (h : .snapshot ∉ l) :
    (s.joinWrites l).snapshotDue = s.snapshotDue := by
  unfold snapshotDue; rw [s.writeWaits_joinWrites h]; rfl

theorem snapshotDue_beginPage (s : State) : s.beginPage.snapshotDue = s.snapshotDue := by
  rw [beginPage_eq]; rfl

/-- The WRITEBACK order, requester by requester. -/
theorem writesDue_eq (s : State) : s.writesDue =
    ([Writer.record].filter fun _ => s.writeDue .record) ++ ([Writer.producer].filter fun _ => s.writeDue .producer) ++
      ([Writer.consumer].filter fun _ => s.writeDue .consumer) ++ ([Writer.page].filter fun _ => s.writeDue .page) ++
      ([Writer.snapshot].filter fun _ => s.writeDue .snapshot) := by
  unfold writesDue
  simp only [List.filter_cons, List.filter_nil]
  cases s.writeDue .record <;> cases s.writeDue .producer <;> cases s.writeDue .consumer <;> cases s.writeDue .page <;>
    rfl

theorem raiseWrites_eq (s : State) : s.raiseWrites = s.beginPage.joinWrites s.writesDue := by
  unfold raiseWrites
  dsimp only
  rw [raiseWrite_eq s .record, raiseWrite_eq _ .producer, producerDue_joinWrites, joinWrites_joinWrites,
    raiseWrite_eq _ .consumer, consumerDue_joinWrites, joinWrites_joinWrites, beginPage_joinWrites,
    raiseWrite_eq _ .page, pageDue_joinWrites, pageDue_beginPage, joinWrites_joinWrites, raiseWrite_eq _ .snapshot,
    snapshotDue_joinWrites, snapshotDue_beginPage, joinWrites_joinWrites, writesDue_eq]
  · simp only [writeDue]
  all_goals simp

/-! ## All that is raised -/

/-- The requests raised, and the beginning of a Fault Page pass, in one formula (R20, R21). -/
theorem raiseAll_eq (s : State) : s.raiseAll =
    { s with
      arb := { s.arb with
        lookups := s.arb.lookups ++ s.lookupsDue
        voice := tabulate fun v => (s.arb.voice.get v).or (s.clipWant v)
        script := tabulate fun k => (s.arb.script.get k).or (s.scriptWant k)
        writebacks := s.arb.writebacks ++ s.writesDue }
      fault := s.faultBegun } := by
  have due : (s.joinLookups s.lookupsDue).raiseReads.writeDue = s.writeDue := funext fun w => by cases w <;> rfl
  have writes : (s.joinLookups s.lookupsDue).raiseReads.writesDue = s.writesDue := by
    unfold writesDue; rw [due]
  have fault : (s.joinLookups s.lookupsDue).raiseReads.faultBegun = s.faultBegun := by
    have begins : (s.joinLookups s.lookupsDue).raiseReads.pageBegins = s.pageBegins := rfl
    unfold faultBegun; rw [begins]; rfl
  unfold raiseAll
  rw [raiseLookups_eq, raiseWrites_eq, beginPage_eq, writes, fault]
  rfl

/-! ## Each requester's conditions -/

theorem directoryWant_eq_some (s : State) (a : Nat) : s.directoryWant = some a ↔
    ∃ n, s.dir.load = .loading n ∧ a = 64 * n ∧ ¬ s.lookupWaits .directory = true ∧
      ¬ s.carries Purpose.isDirectory = true := by
  unfold directoryWant
  cases s.dir.load with
  | idle => simp
  | loading n => grind

/-- P is ahead of F when it lies within the ring and F has not reached it (R40, R41, log 43). -/
theorem producedAhead_pos (s : State) (slots : Nat) : 0 < s.producedAhead slots ↔
    (s.cue.accepted - s.cue.consumer).toNat ≤ slots ∧
      (s.cue.fetched - s.cue.consumer).toNat < (s.cue.accepted - s.cue.consumer).toNat := by
  unfold producedAhead
  dsimp only
  split
  · next within => omega
  · next passed => omega

theorem cueWant_eq_some (s : State) (a : Nat) : s.cueWant = some a ↔
    ∃ d, s.dir.taken = some d ∧ ¬ s.lookupWaits .cueLine = true ∧ ¬ s.carries Purpose.isCueLine = true ∧
      0 < s.producedAhead d.cueSlots ∧ s.cue.queue.length < 8 ∧ a = s.cueLineAddress d := by
  unfold cueWant
  cases s.dir.taken with
  | none => simp
  | some d => grind [Config.cueQueueSize]

theorem groupWant_eq_some (s : State) (v : Fin 8) (a : Nat) : s.groupWant v = some a ↔
    ∃ d g, s.dir.taken = some d ∧ (s.voice v).group = some g ∧ (s.voice v).state = .lookup ∧
      ¬ s.lookupWaits (.clipGroup v) = true ∧ ¬ s.carriesLive (Purpose.isClipGroup v) = true ∧
      a = d.clipTable + 64 * g := by
  unfold groupWant
  cases s.dir.taken with
  | none => simp
  | some d =>
    cases (s.voice v).group with
    | none => simp
    | some g => grind [Directory.groupAddress]

theorem restoreWant_eq_some (s : State) (a : Nat) : s.restoreWant = some a ↔
    ∃ d r, s.dir.taken = some d ∧ s.ctl.restore = some r ∧ ¬ s.lookupWaits .restore = true ∧
      ¬ s.carries Purpose.isRestore = true ∧ a = d.snapshotArea + 64 * r.line.getD 15 := by
  unfold restoreWant
  cases s.dir.taken with
  | none => simp
  | some d =>
    cases s.ctl.restore with
    | none => simp
    | some r => grind

theorem clipWant_eq_some (s : State) (v : Fin 8) (r : ReadRequest) : s.clipWant v = some r ↔
    ∃ c, (s.voice v).clip = some c ∧ (s.voice v).state.fetches = true ∧ s.arb.voice.get v = none ∧
      ¬ s.carriesLive (Purpose.isClipLine v) = true ∧ (s.voice v).fetchPos < c.length ∧
      (s.voice v).buffer.length + 64 ≤ 4096 ∧ r = c.readFrom (s.voice v).fetchPos := by
  unfold clipWant
  dsimp only
  cases (s.voice v).clip with
  | none => simp
  | some c => grind [Config.voiceBufferSize]

theorem scriptWant_eq_some (s : State) (k : Fin 8) (r : ReadRequest) : s.scriptWant k = some r ↔
    (s.slot k).state.isRunning = true ∧ s.arb.script.get k = none ∧ ¬ s.carriesLive (Purpose.isScript k) = true ∧
      (s.slot k).fetch < (s.slotScene k).steps ∧ (s.slot k).buffer.length + 4 ≤ 8 ∧
      r = ⟨s.stepAddress k (s.slot k).fetch - s.stepAddress k (s.slot k).fetch % 64, 64⟩ := by
  unfold scriptWant
  grind [Config.stepBufferSize]

theorem fetches_iff (x : VoiceState) :
    x.fetches = true ↔ x = .fetching ∨ x = .playing ∨ x = .starved ∨ x = .paused := by
  cases x <;> simp [VoiceState.fetches]

theorem isRunning_iff (x : SlotState) : x.isRunning = true ↔ x = .loading ∨ x = .running ∨ x = .held := by
  cases x <;> simp [SlotState.isRunning]

/-- Once a directory is taken, a WRITEBACK request is raised under its requester's conditions, none being under way. -/
theorem writeDue_iff (s : State) {d : Directory} (taken : s.dir.taken = some d) (w : Writer) : s.writeDue w = true ↔
    ¬ s.writeWaits w = true ∧
      match w with
      | .record => ¬ s.carries Purpose.isRecord = true ∧ s.report.queue ≠ [] ∧
          (s.report.producer - s.report.consumer).toNat < d.reportSlots
      | .producer => ¬ s.carries Purpose.isProducer = true ∧ s.report.writePending = true
      | .consumer => ¬ s.carries Purpose.isConsumer = true ∧ s.cue.writePending = true
      | .page => ¬ s.carries Purpose.isPage = true ∧ (s.fault.writer.isSome = true ∨ s.pageBegins = true)
      | .snapshot => ¬ s.carries Purpose.isSnapshot = true ∧ s.ctl.snapshot.isSome = true ∧ s.ctl.restore = none := by
  cases w <;>
    simp only [writeDue, recordDue, producerDue, consumerDue, snapshotDue, taken, Bool.and_eq_true, Bool.not_eq_true',
      Bool.or_eq_true, Option.isSome_some, true_and, Bool.not_eq_true, decide_eq_true_eq, Option.isNone_iff_eq_none,
      List.isEmpty_eq_false_iff] <;>
    tauto

theorem pageBegins_iff (s : State) {d : Directory} (taken : s.dir.taken = some d) : s.pageBegins = true ↔
    s.fault.dirty = true ∧ s.fault.writer = none ∧ ¬ s.carries Purpose.isPage = true := by
  simp [pageBegins, taken, and_assoc]

/-- Before the first take nothing is written back. -/
theorem writesDue_untaken (s : State) (untaken : s.dir.taken = none) : s.writesDue = [] := by
  unfold writesDue
  rw [List.filter_eq_nil_iff]
  intro w _
  cases w <;> simp [writeDue, recordDue, producerDue, consumerDue, snapshotDue, untaken]

theorem pageBegins_untaken (s : State) (untaken : s.dir.taken = none) : s.pageBegins = false := by
  simp [pageBegins, untaken]

/-! ## The cyclic order after a pointer -/

/-- How far a number stands behind the one that follows the pointer. -/
def behind (p v : Fin 8) : Nat := (v - (p + 1)).val

theorem behind_inj {p v w : Fin 8} (h : behind p v = behind p w) : v = w := sub_left_injective (Fin.ext h)

theorem pairwise_after (p : Fin 8) : (after p).Pairwise fun v w => behind p v < behind p w := by
  revert p; decide +kernel

/-- The pick of a cyclic order among the numbers a condition admits: one that waits, the first after the pointer. -/
theorem firstWaiting_after_iff (requests : Vector (Option ReadRequest) 8) (p : Fin 8) (q : Fin 8 → Bool) (v : Fin 8)
    (r : ReadRequest) : firstWaiting requests ((after p).filter q) = some (v, r) ↔
      requests.get v = some r ∧ q v = true ∧
        ∀ w, (requests.get w).isSome = true → q w = true → behind p v ≤ behind p w := by
  have picked : ∀ v r, firstWaiting requests ((after p).filter q) = some (v, r) → requests.get v = some r ∧ q v = true ∧
      ∀ w, (requests.get w).isSome = true → q w = true → behind p v ≤ behind p w := by
    intro v r h
    obtain ⟨before, u, rest, split, found, passed⟩ := List.findSome?_eq_some_iff.1 h
    obtain ⟨r', waits, e⟩ := Option.map_eq_some_iff.1 found
    cases e
    have mem : ∀ w, w ∈ (after p).filter q ↔ w ∈ before ++ v :: rest := fun w => by rw [split]
    have order := (pairwise_after p).filter q
    rw [split, List.pairwise_append, List.pairwise_cons] at order
    refine ⟨waits, (List.mem_filter.1 ((mem v).2 (by simp))).2, fun w hw hq => ?_⟩
    have place := (mem w).1 (List.mem_filter.2 ⟨mem_after p w, hq⟩)
    rw [List.mem_append, List.mem_cons] at place
    rcases place with early | rfl | late
    · have none : requests.get w = none := by simpa using passed w early
      rw [none] at hw; cases hw
    · exact le_rfl
    · exact (order.2.1.1 w late).le
  refine ⟨picked v r, fun ⟨waits, admitted, first⟩ => ?_⟩
  cases h : firstWaiting requests ((after p).filter q) with
  | none =>
    have none := firstWaiting_none h (List.mem_filter.2 ⟨mem_after p v, admitted⟩)
    rw [none] at waits; cases waits
  | some x =>
    obtain ⟨w, r'⟩ := x
    obtain ⟨waits', admitted', first'⟩ := picked w r' h
    have e : v = w := behind_inj (le_antisymm (first w (by simp [waits']) admitted')
      (first' v (by simp [waits]) admitted))
    subst e
    rw [waits] at waits'; cases waits'; rfl

theorem firstWaiting_after_all (requests : Vector (Option ReadRequest) 8) (p v : Fin 8) (r : ReadRequest)
    (waits : requests.get v = some r) (first : ∀ w, (requests.get w).isSome = true → behind p v ≤ behind p w) :
    firstWaiting requests (after p) = some (v, r) := by
  have h := (firstWaiting_after_iff requests p (fun _ => true) v r).2 ⟨waits, rfl, fun w hw _ => first w hw⟩
  rwa [List.filter_true] at h

theorem firstWaiting_empty (requests : Vector (Option ReadRequest) 8) (order : List (Fin 8))
    (empty : ∀ i, requests.get i = none) : firstWaiting requests order = none := by
  simp [firstWaiting, empty]

/-! ## Urgent refills -/

/-- A voice's request that rule 2 finds: it waits, the buffer is low and clip bytes are left to fetch (R21). -/
def Urgent (s : State) (v : Fin 8) (r : ReadRequest) : Prop :=
  s.arb.voice.get v = some r ∧ (s.voice v).buffer.length < 1024 ∧ (s.voice v).fetchPos < (s.voice v).playedLength

theorem isUrgent_iff (s : State) (v : Fin 8) : s.isUrgent v = true ↔ ∃ r, s.Urgent v r := by
  unfold isUrgent
  rw [Bool.and_eq_true, Bool.and_eq_true, decide_eq_true_eq, decide_eq_true_eq, Option.isSome_iff_exists]
  exact ⟨fun ⟨⟨⟨r, waits⟩, low⟩, left⟩ => ⟨r, waits, low, left⟩, fun ⟨r, waits, low, left⟩ => ⟨⟨⟨r, waits⟩, low⟩, left⟩⟩

theorem urgentVoice_eq_some (s : State) (v : Fin 8) (r : ReadRequest) : s.urgentVoice = some (v, r) ↔
    s.Urgent v r ∧ ∀ w q, s.Urgent w q → behind s.arb.voicePtr v ≤ behind s.arb.voicePtr w := by
  unfold urgentVoice
  rw [firstWaiting_after_iff]
  constructor
  · rintro ⟨waits, urgent, first⟩
    obtain ⟨r', waits', low⟩ := (s.isUrgent_iff v).1 urgent
    exact ⟨⟨waits, low⟩, fun w q h => first w (by simp [h.1]) ((s.isUrgent_iff w).2 ⟨q, h⟩)⟩
  · rintro ⟨urgent, first⟩
    refine ⟨urgent.1, (s.isUrgent_iff v).2 ⟨r, urgent⟩, fun w _ h => ?_⟩
    obtain ⟨q, h⟩ := (s.isUrgent_iff w).1 h
    exact first w q h

theorem urgentVoice_eq_none (s : State) : s.urgentVoice = none ↔ ∀ v r, ¬ s.Urgent v r := by
  constructor
  · intro none v r urgent
    have h := firstWaiting_none none (List.mem_filter.2 ⟨mem_after _ v, (s.isUrgent_iff v).2 ⟨r, urgent⟩⟩)
    rw [urgent.1] at h; cases h
  · intro never
    cases h : s.urgentVoice with
    | none => rfl
    | some x => exact absurd ((s.urgentVoice_eq_some x.1 x.2).1 h).1 (never _ _)

/-! ## Grants, field by field -/

theorem countWait_eq (s : State) : s.countWait = { s with arb := { s.arb with
    forwardedWait := if s.arb.forwarded then min 4 (s.arb.forwardedWait + 1) else s.arb.forwardedWait } } := by
  unfold countWait Config.forwardedBound; split <;> rfl

@[simp] theorem countWait_port (s : State) : s.countWait.port = s.port := by rw [countWait_eq]
@[simp] theorem countWait_voice (s : State) : s.countWait.arb.voice = s.arb.voice := by rw [countWait_eq]
@[simp] theorem countWait_script (s : State) : s.countWait.arb.script = s.arb.script := by rw [countWait_eq]
@[simp] theorem countWait_lookups (s : State) : s.countWait.arb.lookups = s.arb.lookups := by rw [countWait_eq]
@[simp] theorem countWait_writebacks (s : State) : s.countWait.arb.writebacks = s.arb.writebacks := by rw [countWait_eq]
@[simp] theorem countWait_voicePtr (s : State) : s.countWait.arb.voicePtr = s.arb.voicePtr := by rw [countWait_eq]
@[simp] theorem countWait_slotPtr (s : State) : s.countWait.arb.slotPtr = s.arb.slotPtr := by rw [countWait_eq]
@[simp] theorem countWait_classPtr (s : State) : s.countWait.arb.classPtr = s.arb.classPtr := by rw [countWait_eq]

/-- A voice's grant: its line goes out, its request leaves the Arbiter and the pointer becomes it (R21). -/
theorem grantVoice_fields (s : State) (v : Fin 8) (r : ReadRequest) :
    (s.grantVoice v r).port = some ⟨.clipLine v, .read, r.addr, r.length, [], true⟩ ∧
      (s.grantVoice v r).arb.voicePtr = v ∧ (s.grantVoice v r).arb.voice = put s.arb.voice v none ∧
      (s.grantVoice v r).arb.classPtr = s.arb.classPtr := by
  simp [grantVoice, carryRead]

theorem grantVoice_wait (s : State) (v : Fin 8) (r : ReadRequest) (forwarded : s.arb.forwarded = true) :
    (s.grantVoice v r).arb.forwardedWait = min 4 (s.arb.forwardedWait + 1) := by
  simp [grantVoice, countWait_eq, carryRead, forwarded]

/-! ## The pick of each class (R21, 4) -/

theorem grantClass_voice (s : State) (v : Fin 8) (r : ReadRequest) (waits : s.arb.voice.get v = some r)
    (first : ∀ w, (s.arb.voice.get w).isSome = true → behind s.arb.voicePtr v ≤ behind s.arb.voicePtr w) :
    s.grantClass .voice = some (s.grantVoice v r) := by
  simp [grantClass, firstWaiting_after_all _ _ v r waits first]

theorem grantClass_script (s : State) (k : Fin 8) (r : ReadRequest) (waits : s.arb.script.get k = some r)
    (first : ∀ j, (s.arb.script.get j).isSome = true → behind s.arb.slotPtr k ≤ behind s.arb.slotPtr j) :
    s.grantClass .script = some (s.grantScript k r) := by
  simp [grantClass, firstWaiting_after_all _ _ k r waits first]

theorem grantClass_lookup (s : State) (l : Lookup) (rest : List Lookup) (head : s.arb.lookups = l :: rest) :
    s.grantClass .lookup = some (s.grantLookup l rest) := by simp [grantClass, head]

theorem grantClass_writeback (s : State) (w : Writer) (rest : List Writer) (head : s.arb.writebacks = w :: rest) :
    s.grantClass .writeback = some (s.grantWrite w rest) := by simp [grantClass, head]

/-- With no forwarded request a class's grant leaves the forwarded transaction's count alone (R22). -/
theorem grantClass_wait (s t : State) (c : RobinClass) (idle : s.arb.forwarded = false) (h : s.grantClass c = some t) :
    t.arb.forwardedWait = s.arb.forwardedWait := by
  have counted : ∀ u : State, u.arb.forwarded = false → u.countWait.arb.forwardedWait = u.arb.forwardedWait := by
    intro u hu; simp [countWait_eq, hu]
  cases c with
  | voice =>
    obtain ⟨x, -, rfl⟩ := Option.map_eq_some_iff.1 h
    exact counted _ idle
  | script =>
    obtain ⟨x, -, rfl⟩ := Option.map_eq_some_iff.1 h
    exact counted _ idle
  | lookup =>
    simp only [grantClass] at h
    split at h
    · cases h
    · cases h; exact counted _ idle
  | writeback =>
    simp only [grantClass] at h
    split at h
    · cases h
    · cases h
      unfold grantWrite; split
      · rfl
      · exact counted _ idle

theorem grantRobin_wait (s : State) (idle : s.arb.forwarded = false) :
    s.grantRobin.arb.forwardedWait = s.arb.forwardedWait := by
  unfold grantRobin
  cases h : ((classesAfter s.arb.classPtr).findSome? fun c =>
    (s.grantClass c).map fun t => { t with arb := { t.arb with classPtr := c } }) with
  | none => rfl
  | some t =>
    obtain ⟨c, -, granted⟩ := List.exists_of_findSome?_eq_some h
    obtain ⟨u, hu, rfl⟩ := Option.map_eq_some_iff.1 granted
    exact s.grantClass_wait u c idle hu

/-- The round robin grants the first class, going round from the pointer, that has a request (R21). -/
theorem grantRobin_first (s t : State) (c : RobinClass) (before rest : List RobinClass)
    (split : classesAfter s.arb.classPtr = before ++ c :: rest) (none : ∀ b ∈ before, s.grantClass b = none)
    (granted : s.grantClass c = some t) : s.grantRobin = { t with arb := { t.arb with classPtr := c } } := by
  have found : ((classesAfter s.arb.classPtr).findSome? fun c =>
      (s.grantClass c).map fun t => { t with arb := { t.arb with classPtr := c } }) =
      some { t with arb := { t.arb with classPtr := c } } :=
    List.findSome?_eq_some_iff.2 ⟨before, c, rest, split, by simp [granted], fun b hb => by simp [none b hb]⟩
  unfold grantRobin
  rw [found]; rfl

/-! ## The rules of a grant (R21) -/

theorem grant_of_busy (s : State) (busy : s.port.isSome = true) : s.grant = s := by simp [grant, busy]

theorem forwardedGrant_idle (s : State) (idle : s.arb.forwarded = false) : s.forwardedGrant = none := by
  simp [forwardedGrant, idle]

theorem forwardedGrant_waiting (s : State) {x : Transaction} (waits : s.arb.forwarded = true) (held : s.up.held = some x) :
    s.forwardedGrant = some (s.grantForwarded x) := by simp [forwardedGrant, waits, held]

/-- Rules 1 and 3: the forwarded transaction, at the bound of its count or with no refill urgent. -/
theorem grant_forwarded (s : State) {x : Transaction} (free : s.port = none) (waits : s.arb.forwarded = true)
    (held : s.up.held = some x) (rule : s.arb.forwardedWait = 4 ∨ s.urgentVoice = none) :
    s.grant = s.grantForwarded x := by
  unfold grant
  rw [s.forwardedGrant_waiting waits held]
  by_cases bound : s.arb.forwardedWait = 4
  · simp [free, Config.forwardedBound, bound]
  · simp [free, Config.forwardedBound, bound, rule.resolve_left bound]

/-- Rule 2: an urgent refill. -/
theorem grant_urgent (s : State) {v : Fin 8} {r : ReadRequest} (free : s.port = none)
    (below : s.arb.forwarded = true → s.arb.forwardedWait ≠ 4) (urgent : s.urgentVoice = some (v, r)) :
    s.grant = s.grantVoice v r := by
  unfold grant
  cases waits : s.arb.forwarded with
  | false => simp [free, urgent, s.forwardedGrant_idle waits]
  | true => simp [free, urgent, Config.forwardedBound, below waits]

/-- Rule 4: the round robin. -/
theorem grant_robin (s : State) (free : s.port = none) (idle : s.arb.forwarded = false) (calm : s.urgentVoice = none) :
    s.grant = s.grantRobin := by
  unfold grant
  simp [free, calm, s.forwardedGrant_idle idle]

end State

open State

/-- Settles O26: what is raised by `raiseAll_eq`, the conditions by each requester's lemma, the picks by the cyclic order
and the rules one by one. -/
theorem arbiterRules : Obligations.ArbiterRules := by
  unfold Obligations.ArbiterRules
  intro s waits flies fliesLive
  refine ⟨?raised, ?directory, ?cue, ?group, ?restore, ?clip, ?script, ?writes, ?untaken, ?picks, s.grant_of_busy,
    ?forwarded, ?urgent, ?robin⟩
  case raised =>
    rw [raiseAll_eq]
    refine ⟨?_, fun v => tabulate_get _ _, fun k => tabulate_get _ _, rfl, rfl⟩
    simp only [lookupsDue, asked, List.append_assoc]
  case directory => exact fun a => by rw [directoryWant_eq_some, lookupWaits_iff, carries_iff]
  case cue =>
    intro a
    simp only [cueWant_eq_some, lookupWaits_iff, carries_iff, producedAhead_pos, and_assoc]
    rfl
  case group =>
    intro v a
    simp only [groupWant_eq_some, lookupWaits_iff, carriesLive_iff]
    rfl
  case restore =>
    intro a
    simp only [restoreWant_eq_some, lookupWaits_iff, carries_iff]
    rfl
  case clip =>
    intro v r
    simp only [clipWant_eq_some, carriesLive_iff, fetches_iff]
    rfl
  case script =>
    intro k r
    simp only [scriptWant_eq_some, carriesLive_iff, isRunning_iff]
    rfl
  case writes =>
    intro d taken begins due joins
    have begun : s.pageBegins = true ↔ begins := by rw [pageBegins_iff s taken, carries_iff]
    refine ⟨⟨s.writesDue, by rw [raiseAll_eq], List.filter_sublist, fun w => ?_⟩, fun h => ?_, fun h => ?_⟩
    · rw [mem_writesDue, writeDue_iff s taken, writeWaits_iff]
      cases w with
      | page => simp only [carries_iff, begun]; rfl
      | _ => simp only [carries_iff]; rfl
    · rw [raiseAll_eq]; exact if_pos (begun.2 h)
    · rw [raiseAll_eq]; exact if_neg fun k => h (begun.1 k)
  case untaken =>
    intro untaken
    rw [raiseAll_eq, writesDue_untaken s untaken]
    exact ⟨List.append_nil _, if_neg (by simp [pageBegins_untaken s untaken])⟩
  case picks =>
    refine ⟨s.urgentVoice_eq_none, s.urgentVoice_eq_some, fun empty => ?_, fun v r waits first => ?_, fun empty => ?_,
      fun k r waits first => ?_, fun empty => ?_, fun l rest head => ?_, fun empty => ?_, fun w rest d head taken => ?_,
      rfl, rfl, rfl, rfl⟩
    · simp [grantClass, firstWaiting_empty _ _ empty]
    · obtain ⟨port, pointer, requests, -⟩ := s.grantVoice_fields v r
      exact ⟨_, s.grantClass_voice v r waits first, port, pointer, requests⟩
    · simp [grantClass, firstWaiting_empty _ _ empty]
    · exact ⟨_, s.grantClass_script k r waits first, by simp [grantScript, carryRead]⟩
    · simp [grantClass, empty]
    · exact ⟨_, s.grantClass_lookup l rest head, by simp [grantLookup, carryRead]⟩
    · simp [grantClass, empty]
    · exact ⟨_, s.grantClass_writeback w rest head, by simp [grantWrite, taken, carryWrite]⟩
  case forwarded =>
    exact fun free x waits held => ⟨fun bound => s.grant_forwarded free waits held (.inl bound),
      fun _ calm => s.grant_forwarded free waits held (.inr calm)⟩
  case urgent =>
    intro free below v r picked
    obtain ⟨waiting, low, left⟩ := ((s.urgentVoice_eq_some v r).1 picked).1
    obtain ⟨port, pointer, requests, classPtr⟩ := s.grantVoice_fields v r
    rw [s.grant_urgent free below picked]
    exact ⟨port, pointer, classPtr, waiting, by rw [requests, put_get_same], low, left, s.grantVoice_wait v r⟩
  case robin =>
    intro free idle calm
    rw [s.grant_robin free idle calm]
    exact ⟨rfl, s.grantRobin_wait idle, fun c t before rest split none => s.grantRobin_first t c before rest split none⟩

end Sys2Proof.Machine
end

section
/-! PROOFS: the disposition of the forwarded transaction (R6 to R12): its steps as a chain, and what a write that passes
leaves alone. -/

namespace Sys2Proof.Machine

/-! ## The first place a condition picks -/

theorem find?_fins_eq_none {n : Nat} (p : Fin n → Bool) : (fins n).find? p = none ↔ ∀ i, ¬ p i = true := by
  rw [List.find?_eq_none]
  exact ⟨fun h i => h i (mem_fins i), fun h i _ => h i⟩

/-- A search through the numbers in rising order finds the lowest that satisfies the condition. -/
theorem find?_fins_eq_some {n : Nat} (p : Fin n → Bool) (i : Fin n) :
    (fins n).find? p = some i ↔ p i = true ∧ ∀ j < i, ¬ p j = true := by
  rw [List.find?_eq_some_iff_getElem]
  constructor
  · rintro ⟨found, k, hk, e, earlier⟩
    rw [fins_getElem] at e
    subst e
    refine ⟨found, fun j hj => ?_⟩
    have h := earlier j.val hj
    rw [fins_getElem] at h
    simpa using h
  · rintro ⟨found, lowest⟩
    refine ⟨found, i.val, by simp, by rw [fins_getElem], fun j hj => ?_⟩
    rw [fins_getElem]
    simpa using lowest ⟨j, hj.trans i.isLt⟩ hj

namespace State

/-- Does a write overlap the pin of a place (R168)? -/
def Pinned (s : State) (x : Transaction) (i : Fin 16) : Prop := ∃ p, s.pins.get i = some p ∧ p.touches x = true

/-- Does a window in use cover a transaction's address (R11)? -/
def Covered (s : State) (x : Transaction) (w : Fin 12) : Prop :=
  (s.disp.windows.get w).kind ≠ 0 ∧ (s.disp.windows.get w).base ≤ x.addr.toNat ∧
    x.addr.toNat < (s.disp.windows.get w).limit

theorem pinned_iff (s : State) (x : Transaction) (i : Fin 16) :
    (match s.pins.get i with | none => false | some p => p.touches x) = true ↔ s.Pinned x i := by
  unfold Pinned; cases s.pins.get i <;> simp

theorem pinTouched_eq_none (s : State) (x : Transaction) : s.pinTouched x = none ↔ ∀ i, ¬ s.Pinned x i := by
  unfold pinTouched
  rw [find?_fins_eq_none]
  exact forall_congr' fun i => not_congr (s.pinned_iff x i)

theorem pinTouched_eq_some (s : State) (x : Transaction) (i : Fin 16) :
    s.pinTouched x = some i ↔ s.Pinned x i ∧ ∀ j < i, ¬ s.Pinned x j := by
  unfold pinTouched
  rw [find?_fins_eq_some]
  exact and_congr (s.pinned_iff x i) (forall₂_congr fun j _ => not_congr (s.pinned_iff x j))

theorem covered_iff (s : State) (x : Transaction) (w : Fin 12) :
    ((s.disp.windows.get w).kind != 0 && (s.disp.windows.get w).base ≤ x.addr.toNat &&
      x.addr.toNat < (s.disp.windows.get w).limit) = true ↔ s.Covered x w := by
  simp [Covered, and_assoc]

theorem deciding_eq_none (s : State) (x : Transaction) : s.deciding x = none ↔ ∀ w, ¬ s.Covered x w := by
  unfold deciding
  rw [find?_fins_eq_none]
  exact forall_congr' fun w => not_congr (s.covered_iff x w)

theorem deciding_eq_some (s : State) (x : Transaction) (w : Fin 12) :
    s.deciding x = some w ↔ s.Covered x w ∧ ∀ v < w, ¬ s.Covered x v := by
  unfold deciding
  rw [find?_fins_eq_some]
  exact and_congr (s.covered_iff x w) (forall₂_congr fun v _ => not_congr (s.covered_iff x v))

/-! ## The steps -/

theorem isMalformed_iff (x : Transaction) (memory : Nat) : x.isMalformed memory = true ↔
    x.length = 0 ∨ 64 < x.length ∨ 64 < x.addr.toNat % 64 + x.length ∨ memory ≤ x.addr.toNat := by
  simp [Transaction.isMalformed, or_assoc]

/-- Step 1 settles nothing, and the address is in the directory region: step 2 decides. -/
theorem disposal_directory (s : State) (x : Transaction) (formed : ¬ x.isMalformed s.memorySize = true)
    (low : x.addr.toNat < 0x1000) : s.disposal x = s.directoryDisposal x := by
  unfold disposal; rw [if_neg formed, if_pos low]

theorem disposal_outer (s : State) (x : Transaction) (formed : ¬ x.isMalformed s.memorySize = true)
    (high : 0x1000 ≤ x.addr.toNat) : s.disposal x = s.outerDisposal x := by
  unfold disposal; rw [if_neg formed, if_neg (by omega)]

/-- Step 2 at a write (R8, R10). -/
theorem directoryDisposal_write (s : State) (x : Transaction) (write : x.kind = .write) : s.directoryDisposal x =
    if s.dir.locked = true ∨ x.cls = .showClass then .refuse 0 0
    else (s.pinTouched x).elim .pass fun i => .refuse 2 i.val := by
  cases pin : s.pinTouched x <;> simp [directoryDisposal, write, pin]

/-- Steps 3 and 4 at a write (R9, R10). -/
theorem outerDisposal_write (s : State) (x : Transaction) (write : x.kind = .write) : s.outerDisposal x =
    (s.areaTouched x).elim ((s.pinTouched x).elim (s.windowDisposal x) fun i => .refuse 2 i.val) fun n => .refuse 1 n := by
  cases area : s.areaTouched x <;> cases pin : s.pinTouched x <;> simp [outerDisposal, write, area, pin]

/-- Steps 5 and 6, at what steps 3 and 4 let through (R11). -/
theorem outerDisposal_window (s : State) (x : Transaction)
    (through : x.kind = .write → s.areaTouched x = none ∧ ∀ i, ¬ s.Pinned x i) : s.outerDisposal x = s.windowDisposal x := by
  cases kind : x.kind with
  | read => simp [outerDisposal, kind]
  | write =>
    obtain ⟨area, pins⟩ := through kind
    simp [outerDisposal, kind, area, (s.pinTouched_eq_none x).2 pins]

end State

open State

/-- Settles O21: each step of the chain by the lemma that says what it decides. -/
theorem dispositionSteps : Obligations.DispositionSteps := by
  unfold Obligations.DispositionSteps
  intro s x a malformed pinned firstPin covers
  have formed : ¬ malformed → ¬ x.isMalformed s.memorySize = true := fun h => by rwa [isMalformed_iff]
  have pin : ∀ i, firstPin i → s.pinTouched x = some i := fun i => (s.pinTouched_eq_some x i).2
  have noPin : (∀ i, ¬ pinned i) → s.pinTouched x = none := (s.pinTouched_eq_none x).2
  refine ⟨fun h => if_pos ((isMalformed_iff x _).2 h), fun h low => ?directory, fun h high => ?outer⟩
  case directory =>
    rw [s.disposal_directory x (formed h) low]
    refine ⟨fun read => by simp [directoryDisposal, read], fun write barred => ?_, fun write unlocked service => ?_⟩
    · rw [s.directoryDisposal_write x write, if_pos barred]
    · rw [s.directoryDisposal_write x write, if_neg (by simp [unlocked, service])]
      exact ⟨fun i first => by rw [pin i first]; rfl, fun apart => by rw [noPin apart]; rfl⟩
  case outer =>
    rw [s.disposal_outer x (formed h) high]
    refine ⟨fun write n area => ?_, fun write area i first => ?_, fun through => ?_⟩
    · rw [s.outerDisposal_write x write, area]; rfl
    · rw [s.outerDisposal_write x write, area, pin i first]; rfl
    · rw [s.outerDisposal_window x through]
      refine ⟨fun none => ?_, fun w first lowest => ?_⟩
      · simp [windowDisposal, (s.deciding_eq_none x).2 none]
      · have decides : s.deciding x = some w := (s.deciding_eq_some x w).2 ⟨first, lowest⟩
        unfold windowDisposal
        rw [decides]
        refine ⟨fun service => by simp [service], fun cls kind => by simp [cls, kind], fun closed kind => ?_,
          fun readOnly kind => ?_⟩
        · cases x.kind <;> simp [closed, kind]
        · cases x.kind <;> simp [readOnly, kind]

/-! ## The law of the Disposition Unit -/

/-- A write of at least one byte that touches an extent nowhere has no byte in it. -/
theorem not_mem_of_not_touches {e : Extent} {addr length a : Nat} (apart : e.touches addr length = false)
    (first : addr ≤ a) (last : a < addr + length) : ¬ (e.base ≤ a ∧ a < e.limit) := by
  simp [Extent.touches] at apart
  rintro ⟨base, limit⟩
  have := apart (by omega)
  omega

/-- A write that passes is well formed, touches no pin and, above the directory region, no part-written area. -/
theorem pass_cases {s : State} {x : Transaction} (write : x.kind = .write) (pass : s.disposal x = .pass) :
    ¬ x.isMalformed s.memorySize = true ∧ (∀ i, ¬ s.Pinned x i) ∧
      (x.addr.toNat < 0x1000 ∧ s.dir.locked = false ∨ 0x1000 ≤ x.addr.toNat ∧ s.areaTouched x = none) := by
  have formed : ¬ x.isMalformed s.memorySize = true := fun h => by simp [disposal, h] at pass
  rw [← pinTouched_eq_none]
  refine ⟨formed, ?_⟩
  by_cases low : x.addr.toNat < 0x1000
  · rw [s.disposal_directory x formed low, s.directoryDisposal_write x write] at pass
    split at pass
    · cases pass
    · next barred =>
      cases pin : s.pinTouched x with
      | some i => rw [pin] at pass; cases pass
      | none => exact ⟨rfl, .inl ⟨low, by simpa using (not_or.1 barred).1⟩⟩
  · rw [s.disposal_outer x formed (by omega), s.outerDisposal_write x write] at pass
    cases area : s.areaTouched x with
    | some n => rw [area] at pass; cases pass
    | none =>
      cases pin : s.pinTouched x with
      | some i => rw [area, pin] at pass; cases pass
      | none => exact ⟨rfl, .inr ⟨by omega, rfl⟩⟩

theorem Extent.base_of_within {e : Extent} {memory : Nat} (h : e.within memory = true) : 0x1000 ≤ e.base :=
  of_decide_eq_true (Bool.and_eq_true_iff.1 h).1

theorem base_of_ringHolds {base slots memory : Nat} {counts : List Nat} (h : ringHolds base slots memory counts = true) :
    0x1000 ≤ base :=
  Extent.base_of_within (Bool.and_eq_true_iff.1 h).2

/-- The geometry of a directory that passed: every area it places lies above the directory region (R29). -/
theorem Directory.Passed.areas_high {d : Directory} (p : d.Passed) : ∀ e ∈ d.writtenAreas, 0x1000 ≤ e.base := by
  have holds : ∀ c ∈ geometryChecks d, c.holds = true := fun c hc => p.holds c (List.mem_append_left _ hc)
  simp only [geometryChecks, List.forall_mem_cons, Bool.and_eq_true] at holds
  obtain ⟨cue, report, ⟨-, page⟩, ⟨-, snapshot⟩, -⟩ := holds
  have cue := base_of_ringHolds cue
  have report := base_of_ringHolds report
  have page := Extent.base_of_within page
  have snapshot := Extent.base_of_within snapshot
  simp only [Directory.writtenAreas, List.forall_mem_cons]
  exact ⟨by omega, report, by omega, page, snapshot, List.forall_mem_nil _⟩

/-- A write that passes has no byte in a part-written area (R9): below the directory region's end there is none. -/
theorem not_mem_writtenAreas {s : State} {x : Transaction} {d : Directory} (law : DirectoryLaw s)
    (taken : s.dir.taken = some d) (write : x.kind = .write) (pass : s.disposal x = .pass) {a : Nat}
    (first : x.addr.toNat ≤ a) (last : a < x.addr.toNat + x.length) :
    ∀ e ∈ d.writtenAreas, ¬ (e.base ≤ a ∧ a < e.limit) := by
  obtain ⟨formed, -, low | high⟩ := pass_cases write pass
  · intro e he inside
    have base := (law d taken).areas_high e he
    rw [isMalformed_iff] at formed
    omega
  · have apart := high.2
    simp only [areaTouched, taken, firstTouched, List.findIdx?_eq_none_iff] at apart
    exact fun e he => not_mem_of_not_touches (apart e he) first last

/-- Settles O22. -/
theorem dispositionUnitLaw : Obligations.DispositionUnitLaw := by
  unfold Obligations.DispositionUnitLaw
  intro s x law write pass a first last
  obtain ⟨formed, pins, region⟩ := pass_cases write pass
  refine ⟨fun i p hp => ?pins, fun d taken => ?areas, fun locked => ?locked⟩
  case pins =>
    have apart : p.touches x = false := by simpa using fun h => pins i ⟨p, hp, h⟩
    simp only [Pin.touches, Bool.or_eq_false_iff] at apart
    refine ⟨not_mem_of_not_touches apart.1 first last, fun e second => ?_⟩
    have apart' := apart.2
    rw [second] at apart'
    exact not_mem_of_not_touches apart' first last
  case areas =>
    have none := not_mem_writtenAreas law taken write pass first last
    simpa [Directory.writtenAreas] using none
  case locked =>
    rcases region with ⟨-, unlocked⟩ | ⟨high, -⟩
    · rw [unlocked] at locked; cases locked
    · omega

end Sys2Proof.Machine
end

section
/-! PROOFS: the processor's transactions (file 01), from their arrival to memory's answer. The
event of an arrival is two grants (`settle_forward`): the forwarded transaction's, then what its answer lets through. -/

namespace Sys2Proof.Machine

namespace State

/-! ## What the raising of requests leaves alone -/

section Raising

variable (s : State)

@[simp] theorem raiseAll_up : s.raiseAll.up = s.up := by rw [raiseAll_eq]
@[simp] theorem raiseAll_port : s.raiseAll.port = s.port := by rw [raiseAll_eq]
@[simp] theorem raiseAll_report : s.raiseAll.report = s.report := by rw [raiseAll_eq]
@[simp] theorem raiseAll_dir : s.raiseAll.dir = s.dir := by rw [raiseAll_eq]
@[simp] theorem raiseAll_disp : s.raiseAll.disp = s.disp := by rw [raiseAll_eq]
@[simp] theorem raiseAll_showTime : s.raiseAll.showTime = s.showTime := by rw [raiseAll_eq]
@[simp] theorem raiseAll_forwarded : s.raiseAll.arb.forwarded = s.arb.forwarded := by rw [raiseAll_eq]
@[simp] theorem raiseAll_forwardedWait : s.raiseAll.arb.forwardedWait = s.arb.forwardedWait := by rw [raiseAll_eq]
@[simp] theorem raiseAll_classPtr : s.raiseAll.arb.classPtr = s.arb.classPtr := by rw [raiseAll_eq]
@[simp] theorem raiseAll_banks : s.raiseAll.fault.banks = s.fault.banks := by
  rw [raiseAll_eq]; unfold faultBegun; split <;> rfl

@[simp] theorem attend_up : s.attend.up = s.up := rfl
@[simp] theorem attend_port : s.attend.port = s.port := rfl
@[simp] theorem attend_arb : s.attend.arb = s.arb := rfl
@[simp] theorem attend_fault : s.attend.fault = s.fault := rfl
@[simp] theorem attend_queue : s.attend.report.queue = s.report.queue := rfl
@[simp] theorem attend_lost : s.attend.report.lost = s.report.lost := rfl
@[simp] theorem carries_attend (p : Purpose → Bool) : s.attend.carries p = s.carries p := rfl

variable (x : Transaction)

@[simp] theorem forward_up : (s.forward x).up = ⟨some x, none⟩ := rfl
@[simp] theorem forward_forwarded : (s.forward x).arb.forwarded = true := rfl
@[simp] theorem forward_forwardedWait : (s.forward x).arb.forwardedWait = 0 := rfl
@[simp] theorem forward_port : (s.forward x).port = s.port := rfl
@[simp] theorem forward_report : (s.forward x).report = s.report := rfl
@[simp] theorem forward_fault : (s.forward x).fault = s.fault := rfl
@[simp] theorem forward_dir : (s.forward x).dir = s.dir := rfl
@[simp] theorem forward_disp : (s.forward x).disp = s.disp := rfl
@[simp] theorem forward_showTime : (s.forward x).showTime = s.showTime := rfl

/-- The end of an event is two grants, then the attention output. -/
theorem settle_eq : s.settle = s.raiseAll.grant.raiseAll.grant.attend := rfl

end Raising

/-- Behind a busy Memory Port the end of an event grants nothing (R21). -/
theorem settle_of_busy {s : State} (busy : s.port.isSome = true) : s.settle = s.raiseAll.raiseAll.attend := by
  rw [settle_eq, grant_of_busy s.raiseAll (by simpa using busy), grant_of_busy _ (by simpa using busy)]

/-! ## A grant that is not the forwarded transaction's -/

/-- What a round of the Arbiter leaves while no forwarded transaction waits and none flies: the Upstream Port, the records
and the banks; and the port carries a request of the part's own, or nothing. -/
structure OwnRound (s t : State) : Prop where
  up : t.up = s.up
  report : t.report = s.report
  banks : t.fault.banks = s.fault.banks
  carries : t.carries Purpose.isForwarded = false

theorem ownRound_grant {s : State} (idle : s.arb.forwarded = false) (own : s.carries Purpose.isForwarded = false) :
    OwnRound s s.raiseAll.grant := by
  have raised : OwnRound s s.raiseAll :=
    ⟨s.raiseAll_up, s.raiseAll_report, s.raiseAll_banks, by unfold State.carries at *; rwa [raiseAll_port]⟩
  rcases granted_grant s.raiseAll with ⟨-, e⟩ | ⟨-, granted⟩
  · rw [e]; exact raised
  · obtain ⟨up, report, banks, carries⟩ := raised
    generalize s.raiseAll.grant = t at granted
    cases granted with
    | idle c h => exact ⟨up, report, banks, carries⟩
    | read a p r hf hw hb notForwarded h2 => exact ⟨up, report, banks, notForwarded⟩
    | write a w rest d hd hl hf hw hb => exact ⟨up, report, banks, writeOf_notForwarded _ _ _⟩
    | forwarded x waits held => rw [raiseAll_forwarded, idle] at waits; cases waits

/-! ## The arrival of a transaction -/

/-- The answer to either command that presents a transaction (R1). -/
theorem exec_arrives {s : State} {addr : Address} {length : Nat} {cls : TxClass} {data : List Byte} {c : Instr}
    {x : Transaction} (released : s.resetLow = false)
    (command : c = .forwardedReadArrives addr length cls ∧ x = ⟨.read, addr, length, cls, []⟩ ∨
      c = .forwardedWriteArrives addr length cls data ∧ x = ⟨.write, addr, length, cls, data⟩) :
    exec c s = if s.up.held.isNone then .next (s.forward x).settle else .next s := by
  have reacts : exec c s = react s s.up.held.isNone (s.forward x, []) := by
    rcases command with ⟨rfl, rfl⟩ | ⟨rfl, rfl⟩ <;> rfl
  rw [reacts, react, released]
  rfl

/-- The disposition reads the directory, the pins and the windows alone, so neither an arrival nor the raising of requests
changes it. -/
theorem disposal_raised (s : State) (x y : Transaction) : (s.forward x).raiseAll.disposal y = s.disposal y := by
  rw [raiseAll_eq]; rfl

/-- A transaction that finds the port free, no refill being urgent, is granted first (R21). -/
theorem settle_forward {s : State} {x : Transaction} (free : s.port = none)
    (calm : (s.forward x).raiseAll.urgentVoice = none) :
    (s.forward x).settle = ((s.forward x).raiseAll.grantForwarded x).raiseAll.grant.attend := by
  rw [settle_eq, grant_forwarded (x := x) _ (by simpa using free) (by simp) (by simp) (.inr calm)]

/-- An answer given at the grant on arrival stands at the end of the event, as do its records and the banks. -/
theorem settle_answered {s t : State} {x : Transaction} (free : s.port = none)
    (calm : (s.forward x).raiseAll.urgentVoice = none) (granted : (s.forward x).raiseAll.grantForwarded x = t)
    (answered : t.port = none) :
    (s.forward x).settle.up = t.up ∧ (s.forward x).settle.carries Purpose.isForwarded = false ∧
      (s.forward x).settle.report.queue = t.report.queue ∧ (s.forward x).settle.report.lost = t.report.lost ∧
      (s.forward x).settle.fault.banks = t.fault.banks := by
  have taken : t.arb.forwarded = false := granted ▸ forwarded_grantForwarded _ x
  obtain ⟨up, report, banks, carries⟩ := ownRound_grant taken (by simp [State.carries, answered])
  rw [settle_forward free calm, granted, attend_up, attend_queue, attend_lost, attend_fault, carries_attend, report]
  exact ⟨up, carries, rfl, rfl, banks⟩

/-! ## The grant of the forwarded transaction, outcome by outcome (R12 to R14) -/

/-- The Arbiter once the forwarded transaction has left it. -/
def forwardedTaken (s : State) : State := { s with arb := { s.arb with forwarded := false, forwardedWait := 0 } }

section Taken

variable (s : State)

@[simp] theorem forwardedTaken_up : s.forwardedTaken.up = s.up := rfl
@[simp] theorem forwardedTaken_port : s.forwardedTaken.port = s.port := rfl
@[simp] theorem forwardedTaken_report : s.forwardedTaken.report = s.report := rfl
@[simp] theorem forwardedTaken_fault : s.forwardedTaken.fault = s.fault := rfl
@[simp] theorem forwardedTaken_dir : s.forwardedTaken.dir = s.dir := rfl
@[simp] theorem forwardedTaken_disp : s.forwardedTaken.disp = s.disp := rfl
@[simp] theorem forwardedTaken_showTime : s.forwardedTaken.showTime = s.showTime := rfl

end Taken

theorem grantForwarded_pass {s : State} {x : Transaction} (d : s.disposal x = .pass) : s.grantForwarded x =
    { s.forwardedTaken with port := some ⟨.forwarded, x.kind, x.addr.toNat, x.length, x.data, true⟩ } := by
  unfold grantForwarded; rw [d]; rfl

theorem grantForwarded_fill {s : State} {x : Transaction} (d : s.disposal x = .fill) :
    s.grantForwarded x = s.forwardedTaken.respond (.data (zeros x.length)) := by
  unfold grantForwarded; rw [d]; rfl

theorem grantForwarded_malformed {s : State} {x : Transaction} (d : s.disposal x = .malformed) : s.grantForwarded x =
    (s.forwardedTaken.respond .refused).log .malformed [x.addr.toNat, classCode x.cls, x.kind.code] := by
  unfold grantForwarded; rw [d]; rfl

/-- Step 2 alone refuses with source 0, below 0x1000 (R8). -/
theorem low_of_refuse_zero {s : State} {x : Transaction} {which : Nat} (d : s.disposal x = .refuse 0 which) :
    x.addr.toNat < 0x1000 := by
  by_contra high
  by_cases formed : x.isMalformed s.memorySize = true
  · simp [disposal, formed] at d
  · rw [s.disposal_outer x formed (by omega)] at d
    unfold outerDisposal windowDisposal at d
    (repeat' split at d) <;> simp at d

/-- A refusal is logged; one by the lock that covers a byte of the reload word is a reload request ignored (R8, R13). -/
theorem grantForwarded_refuse {s : State} {x : Transaction} {source which : Nat} (d : s.disposal x = .refuse source which) :
    let refused := (s.forwardedTaken.respond .refused).log .writeRefused [x.addr.toNat, classCode x.cls, source, which]
    s.grantForwarded x =
      if source = 0 ∧ s.dir.locked = true ∧ covers x.addr.toNat x.length 0xFFC = true then refused.ignoreReload
      else refused := by
  intro refused
  have e : s.grantForwarded x = if source = 0 then refused.lockedReload x else refused := by
    unfold grantForwarded; rw [d]; rfl
  rw [e]
  by_cases lock : source = 0
  · subst lock
    have locked : refused.dir.locked = s.dir.locked := rfl
    simp [lockedReload, locked, low_of_refuse_zero d]
  · simp [lock]

/-! ## Logging -/

theorem bankPlace_inj {b c : Bank} (h : b.place = c.place) : b = c := by
  revert h; cases b <;> cases c <;> simp [Bank.place]

theorem bank_log_same (s : State) (c : FaultCode) (d : List Nat) :
    (s.log c d).bank c.bank = (s.decideFault c d).record := put_get_same _ _ _

theorem bank_log_other (s : State) (c : FaultCode) (d : List Nat) {b : Bank} (other : c.bank ≠ b) :
    (s.log c d).bank b = s.bank b := put_get_other _ _ fun e => other (bankPlace_inj e)

/-- Two states in which a fault is logged alike: all that the logging reads and writes is the same. -/
structure LogsAlike (s t : State) : Prop where
  banks : t.fault.banks = s.fault.banks
  report : t.report = s.report
  dir : t.dir = s.dir
  showTime : t.showTime = s.showTime

theorem LogsAlike.bank {s t : State} (a : LogsAlike s t) (b : Bank) : t.bank b = s.bank b := by
  unfold State.bank; rw [a.banks]

theorem LogsAlike.bank_of_eq {s t u : State} (a : LogsAlike s t) (e : u.fault.banks = t.fault.banks) (b : Bank) :
    u.bank b = s.bank b := by
  rw [← a.bank b]; unfold State.bank; rw [e]

theorem LogsAlike.policy {s t : State} (a : LogsAlike s t) (b : Bank) : t.policy b = s.policy b := by
  unfold State.policy; rw [a.dir]

theorem LogsAlike.decideFault {s t : State} (a : LogsAlike s t) (c : FaultCode) (d : List Nat) :
    t.decideFault c d = s.decideFault c d := by
  unfold State.decideFault; rw [a.bank, a.policy, a.showTime]

theorem LogsAlike.log {s t : State} (a : LogsAlike s t) (c : FaultCode) (d : List Nat) :
    LogsAlike (s.log c d) (t.log c d) where
  banks := by
    show put t.fault.banks _ (t.decideFault c d).record = put s.fault.banks _ (s.decideFault c d).record
    rw [a.decideFault, a.banks]
  report := by
    simp only [report_log, reportFault]
    rw [a.decideFault, a.policy, a.report, a.showTime]
  dir := a.dir
  showTime := a.showTime

/-- A fault of one bank does not tell what becomes of a fault of another. -/
theorem decideFault_log_other (s : State) (c e : FaultCode) (d f : List Nat) (other : c.bank ≠ e.bank) :
    (s.log c d).decideFault e f = s.decideFault e f := by
  unfold decideFault
  rw [bank_log_other s c d other]; rfl

/-- Neither an arrival nor the raising of requests nor a refusal changes what the logging of a fault reads. -/
theorem logsAlike_refused (s : State) (x : Transaction) :
    LogsAlike s ((s.forward x).raiseAll.forwardedTaken.respond .refused) where
  banks := by simp
  report := by simp
  dir := by simp
  showTime := by simp

end State

open State

/-! ## The statements of the arrival -/

/-- Settles O18. -/
theorem transactionArrives : Obligations.TransactionArrives := by
  unfold Obligations.TransactionArrives
  intro s addr length cls data released c x command
  rw [exec_arrives released command]
  refine ⟨fun free => ?accepted, fun other => ?heldOff⟩
  case accepted =>
    rw [free]
    refine ⟨_, rfl, closes_settle (s.forward x), fun busy => ?_⟩
    rw [settle_of_busy (s := s.forward x) busy]
    simp
  case heldOff => rw [if_neg (by simpa [Option.isNone_iff_eq_none, Option.isSome_iff_ne_none] using other)]

/-- Settles O19. -/
theorem filledReadIsAnsweredWithZeros : Obligations.FilledReadIsAnsweredWithZeros := by
  unfold Obligations.FilledReadIsAnsweredWithZeros
  intro s addr length cls x fill
  refine ⟨?grant, fun released unheld free calm => ?arrival⟩
  case grant => rw [grantForwarded_fill fill]; simp [zeros, x]
  case arrival =>
    have command : exec (.forwardedReadArrives addr length cls) s = .next (s.forward x).settle := by
      rw [exec_arrives (data := []) released (.inl ⟨rfl, rfl⟩), unheld]; rfl
    have fill' : (s.forward x).raiseAll.disposal x = .fill := (disposal_raised s x x).trans fill
    obtain ⟨up, carries, queue, lost, banks⟩ :=
      settle_answered free calm (grantForwarded_fill fill') (by simpa using free)
    exact ⟨_, command, up, carries, by simpa using queue, by simpa using lost, by simpa using banks⟩

/-- Settles O20: the grant on arrival by outcome; what a refusal logs is logged as in the state before the arrival. -/
theorem transactionIsGrantedOnArrival : Obligations.TransactionIsGrantedOnArrival := by
  unfold Obligations.TransactionIsGrantedOnArrival
  intro s addr length cls data released unheld free c x command calm
  have arrives : exec c s = .next (s.forward x).settle := by rw [exec_arrives released command, unheld]; rfl
  obtain ⟨rfl, rfl, rfl⟩ : x.addr = addr ∧ x.length = length ∧ x.cls = cls := by
    rcases command with ⟨-, rfl⟩ | ⟨-, rfl⟩ <;> exact ⟨rfl, rfl, rfl⟩
  rw [← disposal_raised s x x]
  refine ⟨fun pass => ⟨_, arrives, ?pass⟩, fun malformed => ⟨_, arrives, ?malformed⟩,
    fun source which refused => ⟨_, arrives, ?refused⟩⟩
  case pass =>
    rw [settle_forward free calm, grantForwarded_pass pass, grant_of_busy _ (by simp)]
    simp
  case malformed =>
    obtain ⟨up, carries, -, -, banks⟩ :=
      settle_answered free calm (grantForwarded_malformed malformed) (by simpa using free)
    have alike := (logsAlike_refused s x).log .malformed [x.addr.toNat, classCode x.cls, x.kind.code]
    exact ⟨up, carries, (alike.bank_of_eq banks _).trans (bank_log_same s .malformed _)⟩
  case refused =>
    generalize hd : [x.addr.toNat, classCode x.cls, source, which] = detail
    have alike := (logsAlike_refused s x).log .writeRefused detail
    have asked := grantForwarded_refuse refused
    dsimp only at asked
    rw [raiseAll_dir, forward_dir, hd] at asked
    by_cases asks : source = 0 ∧ s.dir.locked = true ∧ covers x.addr.toNat x.length 0xFFC = true
    case pos =>
      have again := alike.log .reloadIgnored [s.disp.reloadWord.toNat]
      rw [if_pos asks, ignoreReload, log_disp, respond_disp, forwardedTaken_disp, raiseAll_disp, forward_disp] at asked
      obtain ⟨up, carries, queue, -, banks⟩ := settle_answered free calm asked (by simpa using free)
      refine ⟨up, carries, ?_, fun _ => ⟨?_, by rw [queue, again.report]⟩, fun h => absurd asks h⟩
      · rw [again.bank_of_eq banks, bank_log_other _ .reloadIgnored _ (by decide)]
        exact bank_log_same s .writeRefused _
      · rw [again.bank_of_eq banks, ← decideFault_log_other s .writeRefused .reloadIgnored detail _ (by decide)]
        exact bank_log_same _ .reloadIgnored _
    case neg =>
      obtain ⟨up, carries, queue, -, banks⟩ := settle_answered free calm (asked.trans (if_neg asks)) (by simpa using free)
      refine ⟨up, carries, (alike.bank_of_eq banks _).trans (bank_log_same s .writeRefused _), fun h => absurd h asks,
        fun _ => ⟨?_, by rw [queue, alike.report]⟩⟩
      exact (alike.bank_of_eq banks _).trans (bank_log_other s .writeRefused _ (by decide))

/-! ## Memory's answers -/

/-- Memory's answer of the kind a command names acts (R4). -/
theorem onAnswer_of_flying {s : State} {f : InFlight} {named : InFlight → Bool} (effect : InFlight → Effect)
    (released : s.resetLow = false) (flying : s.port = some f) (is : named f = true) :
    onAnswer s named effect = .next (conclude (effect f)) := by
  simp [onAnswer, flying, react, released, is]

/-- A completed write that covers no observed word is not observed (R17). -/
theorem observe_of_clear {s : State} {addr : Nat} {data : List Byte}
    (rings : ∀ d, s.dir.taken = some d → covers addr data.length d.cueBase = false ∧
      covers addr data.length (d.reportBase + 4) = false)
    (reload : covers addr data.length 0xFFC = false) : s.observe addr data = (s, []) := by
  have none : s.observeRings addr data = s := by
    unfold observeRings
    cases taken : s.dir.taken with
    | none => rfl
    | some d => simp [rings d taken]
  simp [observe, none, reload]

/-- Settles O23. -/
theorem memoryAnswersTheForwarded : Obligations.MemoryAnswersTheForwarded := by
  unfold Obligations.MemoryAnswersTheForwarded
  intro s f released flying purpose back
  have forwarded : f.purpose.isForwarded = true := by rw [purpose]; rfl
  refine ⟨fun data read length => ?data, fun write rings reload => ?done, fun x held => ?error⟩
  case data => exact leaves_of_conclude (onAnswer_of_flying _ released flying (by simp [forwarded, read, length]))
  case done =>
    refine leaves_of_conclude ((onAnswer_of_flying _ released flying (by simp [forwarded, write])).trans ?_)
    rw [observe_of_clear (s := s.freePort.respond .done) rings reload]
    rfl
  case error =>
    refine leaves_of_conclude ((onAnswer_of_flying _ released flying forwarded).trans ?_)
    rw [held]
    rfl

/-- A completed write over the producer word alone is handed to the Cue Unit (R17, R40). -/
theorem observe_producer {s : State} {d : Directory} {addr : Nat} {data : List Byte} (taken : s.dir.taken = some d)
    (cue : covers addr data.length d.cueBase = true) (report : covers addr data.length (d.reportBase + 4) = false)
    (reload : covers addr data.length 0xFFC = false) : s.observe addr data =
      (({ s with disp := { s.disp with cueProducer := observed s.disp.cueProducer d.cueBase addr data } } :
        State).takeProducer d.cueSlots, []) := by
  simp [observe, observeRings, taken, cue, report, reload]

/-- A completed write over the consumer word alone is handed to the Report Unit (R17, R53). -/
theorem observe_consumer {s : State} {d : Directory} {addr : Nat} {data : List Byte} (taken : s.dir.taken = some d)
    (cue : covers addr data.length d.cueBase = false) (report : covers addr data.length (d.reportBase + 4) = true)
    (reload : covers addr data.length 0xFFC = false) : s.observe addr data =
      (({ s with disp := { s.disp with reportConsumer := observed s.disp.reportConsumer (d.reportBase + 4) addr data } } :
        State).takeConsumer, []) := by
  simp [observe, observeRings, taken, cue, report, reload]

/-- R40: a producer value is judged by how far it is ahead of the consumer count. -/
theorem takeProducer_overrun {s : State} {slots : Nat}
    (ahead : slots < ((s.disp.cueProducer.setWidth 16 : Index) - s.cue.consumer).toNat) : s.takeProducer slots =
      s.log .cueProducerOverrun [(s.disp.cueProducer.setWidth 16 : Index).toNat, s.cue.consumer.toNat] := if_pos ahead

theorem takeProducer_within {s : State} {slots : Nat}
    (within : ((s.disp.cueProducer.setWidth 16 : Index) - s.cue.consumer).toNat ≤ slots) :
    s.takeProducer slots = { s with cue := { s.cue with accepted := s.disp.cueProducer.setWidth 16 } } :=
  if_neg (Nat.not_lt.2 within)

/-- R53: a consumer value is judged by the records that stand unconsumed. -/
theorem takeConsumer_valid {s : State} (valid : ((s.disp.reportConsumer.setWidth 16 : Index) - s.report.consumer).toNat ≤
    (s.report.producer - s.report.consumer).toNat) :
    s.takeConsumer = { s with report := { s.report with consumer := s.disp.reportConsumer.setWidth 16 } } := if_pos valid

theorem takeConsumer_invalid {s : State} (invalid : (s.report.producer - s.report.consumer).toNat <
    ((s.disp.reportConsumer.setWidth 16 : Index) - s.report.consumer).toNat) : s.takeConsumer =
      s.log .reportConsumerInvalid
        [(s.disp.reportConsumer.setWidth 16 : Index).toNat, s.report.consumer.toNat, s.report.producer.toNat] :=
  if_neg (Nat.not_le.2 invalid)

/-- Settles O24. -/
theorem ringWordsAreObserved : Obligations.RingWordsAreObserved := by
  unfold Obligations.RingWordsAreObserved
  intro s f d released flying purpose write taken reload back
  have done : exec .forwardedWriteDone s = .next (conclude (back.observe f.addr f.data)) :=
    onAnswer_of_flying _ released flying (by simp [purpose, Purpose.isForwarded, write])
  refine ⟨?producer, ?consumer⟩
  case producer =>
    intro cue report copy p u
    rw [observe_producer (s := back) taken cue report reload] at done
    refine ⟨(u.takeProducer d.cueSlots).settle, done, fun overrun => ?_, fun within => ?_⟩
    · rw [takeProducer_overrun (s := u) overrun]; exact closes_settle _
    · rw [takeProducer_within (s := u) within]; exact closes_settle _
  case consumer =>
    intro cue report copy v u
    rw [observe_consumer (s := back) taken cue report reload] at done
    refine ⟨u.takeConsumer.settle, done, fun valid => ?_, fun invalid => ?_⟩
    · rw [takeConsumer_valid (s := u) valid]; exact closes_settle _
    · rw [takeConsumer_invalid (s := u) invalid]; exact closes_settle _

end Sys2Proof.Machine
end

section
/-! PROOFS: the leaving of reset (R23 to R25). While RESET is low every way a command is answered leaves the part as it is,
or moves the one line it names (logs 1 and 3). -/

namespace Sys2Proof.Machine

open State

/-! ## What a command answers while RESET is low -/

theorem react_low {s : State} (low : s.resetLow = true) (due : Bool) (e : Effect) : react s due e = .next s := by
  simp [react, low]

theorem onAnswer_low {s : State} (low : s.resetLow = true) (named : InFlight → Bool) (effect : InFlight → Effect) :
    onAnswer s named effect = .next s := by
  unfold onAnswer; split
  · rfl
  · exact react_low low _ _

theorem takeCue_low {s : State} (low : s.resetLow = true) (kind : Option CueKind) (effect : State → TakenCue → Effect) :
    takeCue s kind effect = .next s := by
  unfold takeCue; split
  · exact react_low low _ _
  · rfl

/-- An input line follows its level; a line that has the level named already is where the command would move it. -/
theorem onLine_low {s moved : State} (low : s.resetLow = true) {changed : Bool} (same : changed = false → moved = s)
    (e : Effect) : onLine s changed moved e = .next moved := by
  unfold onLine
  cases changed with
  | false => simp [same rfl]
  | true => simp [low]

theorem level_of_not_inactive {l : Level} (h : (l == .inactive) = false) : l = .active := by cases l <;> simp_all

theorem level_of_not_active {l : Level} (h : (l == .active) = false) : l = .inactive := by cases l <;> simp_all

theorem setGuardLine_same {s : State} {line : Fin 8} {l : Level} (h : s.lines.guard.get line = l) :
    s.setGuardLine line l = s := by subst h; simp [setGuardLine]

theorem setVisitorLine_same {s : State} {i : Fin 24} {l : Level} (h : s.lines.visitor.get i = l) :
    s.setVisitorLine i l = s := by subst h; simp [setVisitorLine]

theorem setHomeLine_same {s : State} {n : Fin 12} {l : Level} (h : s.lines.home.get n = l) :
    s.setHomeLine n l = s := by subst h; simp [setHomeLine]

theorem setStallLine_same {s : State} {n : Fin 12} {l : Level} (h : s.lines.stall.get n = l) :
    s.setStallLine n l = s := by subst h; simp [setStallLine]

theorem setPowerLine_same {s : State} {l : Level} (h : s.lines.power = l) : s.setPowerLine l = s := by
  subst h; rfl

/-- While RESET is low a command other than the two of the RESET line leaves the part as it is, or moves its line. -/
theorem exec_low {s : State} (low : s.resetLow = true) (c : Instr) (notReset : c ≠ .hardwareReset)
    (notRelease : c ≠ .resetRelease) : exec c s = .next (s.lineMoved c) := by
  cases c <;> simp only [exec, lineMoved]
  case hardwareReset => exact absurd rfl notReset
  case resetRelease => exact absurd rfl notRelease
  case guardInputActive => exact onLine_low low (fun h => setGuardLine_same (level_of_not_inactive h)) _
  case guardInputInactive => exact onLine_low low (fun h => setGuardLine_same (level_of_not_active h)) _
  case visitorLineChange => exact onLine_low low (fun h => setVisitorLine_same (by simpa using h)) _
  case homeSwitchActive => exact onLine_low low (fun h => setHomeLine_same (level_of_not_inactive h)) _
  case homeSwitchInactive => exact onLine_low low (fun h => setHomeLine_same (level_of_not_active h)) _
  case stall => exact onLine_low low (fun h => setStallLine_same (level_of_not_inactive h)) _
  case stallInputInactive => exact onLine_low low (fun h => setStallLine_same (level_of_not_active h)) _
  case powerWarning => exact onLine_low low (fun h => setPowerLine_same (level_of_not_inactive h)) _
  case powerWarningInactive => exact onLine_low low (fun h => setPowerLine_same (level_of_not_active h)) _
  case withdrawnWrite => rfl
  case failedEntryTake =>
    unfold execFailedEntryTake; split
    · exact react_low low _ _
    · rfl
  case waitTimeout k =>
    unfold execWaitTimeout; split
    · rfl
    · exact react_low low _ _
  case requestScene | stopScene | stopAll | closeZone | openZone | setLanguage | setBaseLevel | houseLights | homeAxis
      | holdShow | releaseShow | clearFault | enterSafe | leaveSafe | restoreShow | mark | unknownKind =>
    exact takeCue_low low _ _
  case forwardedData | forwardedWriteDone | memoryErrorForwarded | directoryLineArrives | directoryReadFailed
      | cueLineArrives | cueFetchFailed | consumerWriteDone | consumerWriteFailed | reportRecordDone | reportWriteFailed
      | producerWriteDone | producerWriteFailed | scriptLineArrives | scriptReadFailed | clipGroupArrives
      | clipLineArrives | clipReadFailed | faultPageLineDone | faultPageWriteFailed | snapshotLineDone | snapshotFailed
      | restoreLineArrives | restoreReadFailed => exact onAnswer_low low _ _
  all_goals exact react_low low _ _

/-! ## The first load -/

theorem exec_resetRelease {s : State} (low : s.resetLow = true) :
    exec .resetRelease s = .next ({ s with resetLow := false } : State).beginLoad.settle := if_pos low

/-- With nothing taken, no request waiting and no voice or slot in use, the directory line due is all that is wanted, and it
is read at once. -/
theorem settle_readsDirectory {s : State} {n : Nat} (load : s.dir.load = .loading n) (untaken : s.dir.taken = none)
    (free : s.port = none) (arb : s.arb = .reset) (voices : ∀ v, (s.voice v).clip = none)
    (slots : ∀ k, (s.slot k).state = .free) : s.settle.port = some ⟨.directory, .read, 64 * n, 64, [], true⟩ := by
  have lookups : s.lookupsDue = [⟨.directory, 64 * n⟩] := by
    simp [lookupsDue, asked, directoryWant, cueWant, groupWant, restoreWant, load, untaken, free, arb, lookupWaits,
      Arbiter.reset, State.carries]
  have clip : ∀ v, s.clipWant v = none := fun v => by simp [clipWant, voices]
  have script : ∀ k, s.scriptWant k = none := fun k => by simp [scriptWant, slots, SlotState.isRunning]
  have raised : s.raiseAll.arb.lookups = [⟨.directory, 64 * n⟩] ∧ (∀ v, s.raiseAll.arb.voice.get v = none) ∧
      ∀ k, s.raiseAll.arb.script.get k = none := by
    rw [raiseAll_eq]
    simp [lookups, clip, script, arb, Arbiter.reset]
  obtain ⟨head, noVoice, noScript⟩ := raised
  have calm : s.raiseAll.urgentVoice = none :=
    (urgentVoice_eq_none _).2 fun v r urgent => by simpa [noVoice v] using urgent.1
  have order : classesAfter s.raiseAll.arb.classPtr = [RobinClass.voice, .script] ++ RobinClass.lookup :: [.writeback] := by
    simp [arb, Arbiter.reset, classesAfter]
  have passed : ∀ c ∈ [RobinClass.voice, .script], s.raiseAll.grantClass c = none := by
    simp [grantClass, firstWaiting_empty _ _ noVoice, firstWaiting_empty _ _ noScript]
  have read : s.raiseAll.grant.port = some ⟨.directory, .read, 64 * n, 64, [], true⟩ := by
    rw [grant_robin _ (by simpa using free) (by simp [arb, Arbiter.reset]) calm,
      grantRobin_first _ _ .lookup _ _ order passed (grantClass_lookup _ _ _ head)]
    simp [grantLookup, carryRead, Looker.purpose]
  rw [settle_eq, grant_of_busy _ (by simp [read]), attend_port, raiseAll_port, read]

/-- Settles O5. -/
theorem resetAndRelease : Obligations.ResetAndRelease := by
  unfold Obligations.ResetAndRelease
  intro s
  refine ⟨rfl, exec_low, fun low => leaves_of_conclude (if_pos low), fun p l e => ?release⟩
  case release =>
    have low : s.resetLow = true := by rw [e]; rfl
    have start : s.ctl.state = .start := by rw [e]; rfl
    have untaken : s.dir.taken = none := by rw [e]; rfl
    have free : s.port = none := by rw [e]; rfl
    have arb : s.arb = .reset := by rw [e]; rfl
    have voices : s.voices = State.reset.voices := by rw [e]
    have slots : s.slots = State.reset.slots := by rw [e]
    refine ⟨_, exec_resetRelease low, ?_, settle_readsDirectory (n := 0) rfl untaken free arb (fun v => ?_) fun k => ?_⟩
    · rw [(interior_settle _).ctl]; exact start
    · show (s.voices.get v).clip = none
      rw [voices]; exact congrArg Voice.clip (voice_reset v)
    · show (s.slots.get k).state = .free
      rw [slots]; exact congrArg Slot.state (slot_reset k)

end Sys2Proof.Machine
end

section
/-! PROOFS: the Show Directory (file 02). The law of the taken directory over a step, the reload request, and the two ends
of a load: by a failed check or read (R34), and by a take (R31 to R33), whose share at each unit is said once. -/

namespace Sys2Proof.Machine

open State

/-! ## The law of the taken directory -/

theorem DirectoryLaw.tick {s : State} (h : DirectoryLaw s) : DirectoryLaw s.tick := by
  obtain ⟨-, -, -, -, -, dir⟩ := tick_frame s
  unfold DirectoryLaw; rwa [dir]

/-- Settles O15: of the changes of an event the take alone sets the directory, to that of an image that has passed. -/
theorem stepKeepsDirectoryLaw : Obligations.StepKeepsDirectoryLaw := by
  intro s t h e
  exact step_keeps DirectoryLaw DirectoryLaw (pre := fun _ => id) (change := Change.directoryLaw)
    (settle := DirectoryLaw.settle) (lines := fun _ _ => id) (pending := fun _ _ => id)
    (reset := fun _ => directoryLaw_reset) (tick := fun _ => DirectoryLaw.tick) h e

/-! ## The reload request (R36, R173, R174) -/

namespace State

/-- A completed write over no ring word leaves the ring units as they are (R17). -/
theorem observeRings_of_clear {s : State} {addr : Nat} {data : List Byte}
    (rings : ∀ d, s.dir.taken = some d → covers addr data.length d.cueBase = false ∧
      covers addr data.length (d.reportBase + 4) = false) : s.observeRings addr data = s := by
  unfold observeRings
  cases taken : s.dir.taken with
  | none => rfl
  | some d => simp [rings d taken]

/-- A completed write over the reload word alone (R17, R36). -/
theorem observe_reload {s : State} {addr : Nat} {data : List Byte}
    (rings : ∀ d, s.dir.taken = some d → covers addr data.length d.cueBase = false ∧
      covers addr data.length (d.reportBase + 4) = false)
    (reload : covers addr data.length 0xFFC = true) : s.observe addr data =
      ({ s with disp := { s.disp with reloadWord := observed s.disp.reloadWord 0xFFC addr data } } :
        State).requestReload := by
  rw [observe, observeRings_of_clear rings]
  exact if_pos reload

section Requests

variable {s : State}

/-- Locked, or with a load or a wind-down under way or the show in HOLD, the request is ignored (R36, R173). -/
theorem requestReload_ignored (ignored : s.dir.locked = true ∨ s.ctl.state = .start ∨ s.ctl.state = .hold ∨
    s.ctl.state = .draining) : s.requestReload = (s.ignoreReload, []) := by
  unfold requestReload
  rcases ignored with locked | state | state | state
  · cases s.ctl.state <;> simp [locked]
  all_goals rw [state]

/-- Out of UNCONFIGURED and SAFE the load begins at once (R173). -/
theorem requestReload_starts (unlocked : s.dir.locked = false)
    (state : s.ctl.state = .unconfigured ∨ s.ctl.state = .safe) : s.requestReload = (s.enterStart, []) := by
  unfold requestReload
  rcases state with state | state <;> rw [state] <;> simp [unlocked]

/-- Out of RUN the show winds down first (R173, R174). -/
theorem requestReload_drains (unlocked : s.dir.locked = false) (state : s.ctl.state = .run) :
    s.requestReload = s.enterDraining := by
  unfold requestReload
  rw [state]; simp [unlocked]

end Requests

/-- DRAINING entry with the port free: the SHOW STATE record, then the end of a restore read under way, whose waiting
request alone is left of it (R174, R186, log 19). -/
theorem enterDraining_of_free {s : State} (free : s.port = none) (run : s.ctl.state = .run) :
    let v := s.produce (.showState .run .draining)
    let w := if s.ctl.restore.isSome then
        { v.produce (.restoreDone .abandoned 0) with
          arb := { s.arb with lookups := s.arb.lookups.filter fun l => l.who != .restore } }
      else v
    s.enterDraining.1 = { w with ctl := { s.ctl with state := .draining, restore := none } } := by
  intro v w
  have entered : (s.changeShow .draining).ctl.restore = s.ctl.restore := rfl
  unfold enterDraining abandonRestore
  rw [entered]
  cases restore : s.ctl.restore with
  | none => simp [w, v, restore, run, changeShow]
  | some r =>
    simp [w, v, restore, run, changeShow, dropRestore, withdrawLookup, discard, produce, free]

/-! ### The quiet test -/

theorem inMotion_eq_false_iff (a : AxisState) :
    a.inMotion = false ↔ a = .unhomed ∨ a = .idle ∨ a = .faulted := by
  cases a <;> simp [AxisState.inMotion]

theorem all_fins_iff {n : Nat} (p : Fin n → Bool) : (fins n).all p = true ↔ ∀ i, p i = true := by
  simp [List.all_eq_true, mem_fins]

/-- Every slot FREE, every voice IDLE and no axis in motion (R174). -/
theorem isQuiet_iff (s : State) : s.isQuiet = true ↔ (∀ k, (s.slot k).state = .free) ∧
    (∀ v, (s.voice v).state = .idle) ∧
      ∀ n, (s.axis n).state = .unhomed ∨ (s.axis n).state = .idle ∨ (s.axis n).state = .faulted := by
  simp only [isQuiet, Bool.and_eq_true, all_fins_iff, beq_iff_eq, Bool.not_eq_true', inMotion_eq_false_iff, and_assoc]

end State

/-- Settles O25: the request by show state and lock, and the quiet test by its condition. -/
theorem reloadRequestIsDecided : Obligations.ReloadRequestIsDecided := by
  unfold Obligations.ReloadRequestIsDecided
  intro s f released flying purpose write reload rings copy u
  have done : exec .forwardedWriteDone s = .next (conclude u.requestReload) := by
    have seen : (s.freePort.respond .done).observe f.addr f.data = u.requestReload := observe_reload rings reload
    rw [← seen]
    exact onAnswer_of_flying _ released flying (by simp [purpose, Purpose.isForwarded, write])
  refine ⟨fun ignored => ?ignored, fun unlocked state => ?starts, fun unlocked state => ?drains, ?noisy, ?quiet⟩
  case ignored =>
    rw [requestReload_ignored (s := u) ignored] at done
    exact leaves_of_conclude done
  case starts =>
    rw [requestReload_starts (s := u) unlocked state] at done
    exact leaves_of_conclude done
  case drains =>
    rw [requestReload_drains (s := u) unlocked state] at done
    intro v w
    have entered : u.enterDraining.1 = { w with ctl := { s.ctl with state := .draining, restore := none } } :=
      enterDraining_of_free (s := u) rfl state
    have event : u.enterDraining = (_, u.drainingNotices) := Prod.ext entered rfl
    rw [done, event]
    rfl
  case noisy =>
    intro noisy
    have stays : s.testQuiet = s := by
      refine if_neg fun h => ?_
      obtain ⟨draining, still⟩ := by simpa using h
      exact noisy.elim (· draining) (· ((isQuiet_iff s).1 still))
    exact congrArg (·, []) stays
  case quiet =>
    intro draining quiet v
    have starts : s.testQuiet = s.enterStart := if_pos (by simp [draining, (isQuiet_iff s).2 quiet])
    refine congrArg (·, []) (starts.trans ?_)
    rw [enterStart, changeShow, draining]
    rfl

/-! ## A load goes on, or fails (R25 to R27, R34) -/

@[simp] theorem runTasks_nil (n : Nat) (s : State) : runTasks n [] s = s := by cases n <;> rfl

/-- With fuel left, the first task runs, then what it asks for, then the rest. -/
theorem runTasks_cons (n : Nat) (t : Task) (ts : List Task) (s : State) :
    runTasks (n + 1) (t :: ts) s = runTasks n ((perform t s).2 ++ ts) (perform t s).1 := rfl

/-- A task that asks for nothing more is all of its event. -/
theorem follow_of_last {t : Task} {s u : State} (last : perform t s = (u, [])) : follow 0 (s, [t]) = u.settle := by
  have fuel : Config.agendaFuel - 0 = Config.agendaFuel - 1 + 1 := rfl
  rw [follow, fuel, runTasks_cons, last, List.append_nil, runTasks_nil]

/-- With no directory taken the show leaves START for UNCONFIGURED (R172). -/
theorem leaveStart_untaken {s : State} (start : s.ctl.state = .start) (untaken : s.dir.taken = none) (taken : Bool) :
    perform (.leaveStart taken) s =
      (({ s with ctl := { s.ctl with safePending := false } } : State).changeShow .unconfigured, []) := by
  show s.leaveStart taken = _
  unfold leaveStart
  rw [untaken]
  simp [start]

section Load

variable {s : State} {f : InFlight} {n : Nat} {data : List Byte}

/-- The last line's image is judged in its event (R27). -/
theorem exec_lastDirectoryLine (released : s.resetLow = false) (flying : s.port = some f) (purpose : f.purpose = .directory)
    (load : s.dir.load = .loading n) (last : 63 ≤ n) (length : data.length = f.length) :
    exec (.directoryLineArrives data) s = .next (conclude (s.freePort.judgeImage (s.dir.image ++ data))) := by
  refine (onAnswer_of_flying _ released flying (by simp [purpose, Purpose.isDirectory, length])).trans ?_
  rw [load]
  simp [Nat.not_lt.2 last]

/-- A line before the last joins the load image, and the next is due (R25). -/
theorem exec_directoryLine (released : s.resetLow = false) (flying : s.port = some f) (purpose : f.purpose = .directory)
    (load : s.dir.load = .loading n) (more : n < 63) (length : data.length = f.length) :
    exec (.directoryLineArrives data) s = .next (conclude
      ({ s with port := none, dir := { s.dir with image := s.dir.image ++ data, load := .loading (n + 1) } }, [])) := by
  refine (onAnswer_of_flying _ released flying (by simp [purpose, Purpose.isDirectory, length])).trans ?_
  rw [load]
  simp [more, freePort]

/-- The read of a line that memory could not give ends the load (R26). -/
theorem exec_directoryReadFailed (released : s.resetLow = false) (flying : s.port = some f)
    (purpose : f.purpose = .directory) : exec .directoryReadFailed s =
      .next (conclude (s.freePort.discardImage.log .directoryReadFailed [f.addr], [.leaveStart false])) :=
  onAnswer_of_flying _ released flying (by simp [purpose, Purpose.isDirectory])

end Load

/-- Settles O27: a failed load asks only for the leaving of START, which ends the event where no directory is taken. -/
theorem directoryLoadGoesOnOrFails : Obligations.DirectoryLoadGoesOnOrFails := by
  unfold Obligations.DirectoryLoadGoesOnOrFails
  intro s f n released flying purpose load failed unconfigured
  -- a failed load leaves START, and with no directory taken that is all
  have ends : ∀ code detail c, s.ctl.state = .start → s.dir.taken = none →
      exec c s = .next (follow 0 (failed code detail, [.leaveStart false])) →
      ∃ t, exec c s = .next t ∧ Closes (unconfigured (failed code detail)) t := by
    intro code detail c start untaken answer
    rw [answer, follow_of_last (leaveStart_untaken (s := failed code detail) start untaken false)]
    refine ⟨_, rfl, ?_⟩
    have left : unconfigured (failed code detail) = ({ failed code detail with
        ctl := { s.ctl with safePending := false } } : State).changeShow .unconfigured := by
      simp [unconfigured, changeShow, start]
    rw [left]
    exact closes_settle _
  refine ⟨fun data length => ⟨fun more => ?goesOn, fun last c first start => ?rejected⟩, fun start => ?unread⟩
  case goesOn => exact ⟨_, exec_directoryLine released flying purpose load more length, closes_settle _⟩
  case rejected =>
    have answer : exec (.directoryLineArrives data) s =
        .next (follow 0 (failed .directoryInvalid [c.word], [.leaveStart false])) := by
      rw [exec_lastDirectoryLine released flying purpose load last length, judgeImage, first]
      rfl
    exact ⟨answer, fun untaken => ends _ _ _ start untaken answer⟩
  case unread =>
    have answer := exec_directoryReadFailed released flying purpose
    exact ⟨answer, fun untaken => ends _ _ _ start untaken answer⟩

/-! ## What the tasks and the end of an event keep -/

/-- What an event's tasks and end leave of the directory, the observed words, the Cue Unit and the ring's counts. -/
structure Lasts (u t : State) : Prop where
  taken : t.dir.taken = u.dir.taken
  locked : t.dir.locked = u.dir.locked
  sequence : t.dir.sequence = u.dir.sequence
  disp : t.disp = u.disp
  cue : t.cue = u.cue
  producer : t.report.producer = u.report.producer
  consumer : t.report.consumer = u.report.consumer
  writePending : t.report.writePending = u.report.writePending
  queue : u.report.queue <+: t.report.queue

theorem lasts_follow (n : Nat) (u : State) (ts : List Task) : Lasts u (follow n (u, ts)) := by
  have tasks := outer_runTasks (Config.agendaFuel - n) ts u
  have grows : u.Follows _ := follows_runTasks (Config.agendaFuel - n) ts u
  unfold follow
  dsimp only
  generalize runTasks (Config.agendaFuel - n) ts u = v at tasks grows
  simp only [outer, Outer.mk.injEq] at tasks
  obtain ⟨-, -, -, -, -, disp, cue, -, -, taken, locked, sequence, producer, consumer, writePending, -, -⟩ := tasks
  obtain ⟨-, ⟨queue, producer', consumer', writePending'⟩, -⟩ := closes_settle v
  have inside := interior_settle v
  have dir : v.settle.dir = v.dir := inside.dir
  exact ⟨by rw [dir, taken], by rw [dir, locked], by rw [dir, sequence], inside.disp.trans disp, inside.cue.trans cue,
    producer'.trans producer, consumer'.trans consumer, writePending'.trans writePending, grows.trans queue⟩

/-! ### A full Report Queue takes no record -/

theorem length_joined_le (r : ReportUnit) (x : QueuedRecord) {n : Nat} (full : 16 ≤ n) (h : r.queue.length ≤ n) :
    (r.joined x).queue.length ≤ n := by
  unfold ReportUnit.joined
  split
  · next room =>
    have room : r.queue.length < 16 := room
    simp only [List.length_append, List.length_singleton]
    omega
  · exact h

theorem length_reportFault_le (s : State) (c : FaultCode) (d : List Nat) {n : Nat} (full : 16 ≤ n)
    (h : s.report.queue.length ≤ n) : (s.reportFault c d).queue.length ≤ n := by
  unfold reportFault
  split
  · exact length_joined_le _ _ full h
  · exact h

/-- No change takes the Report Queue past 16 records, or past what it holds where it holds more (R50). -/
theorem Change.queue_le {s t : State} (c : Change s t) {n : Nat} (full : 16 ≤ n) (h : s.report.queue.length ≤ n) :
    t.report.queue.length ≤ n := by
  have shorter : s.report.queue.tail.length ≤ n := by rw [List.length_tail]; omega
  cases c with
  | closed z =>
    have drops : ∀ (l : List Request) (u : State), u.report.queue.length ≤ n →
        (l.foldl (fun u r => u.drop r .zoneClosed) u).report.queue.length ≤ n := by
      intro l
      induction l with
      | nil => exact fun _ => id
      | cons r l ih => exact fun u hu => ih _ (length_joined_le u.report _ full hu)
    exact drops _ _ h
  | produced r => exact length_joined_le _ _ full h
  | logged m c d => exact length_reportFault_le s c d full h
  | written _ _ => exact shorter
  | recordLost => exact shorter
  | taken d hd =>
    have same : (s.takeCueRing d).report.queue = s.report.queue := by
      rw [report_takeCueRing]; split <;> rfl
    rw [report_takeBlocks, report_takeRings]
    split
    · exact Nat.zero_le _
    · rw [same]; exact h
  | _ => exact h

theorem queue_le_settle {s : State} {n : Nat} (full : 16 ≤ n) (h : s.report.queue.length ≤ n) :
    s.settle.report.queue.length ≤ n := by
  refine settle_of (P := fun t => t.report.queue.length ≤ n) (fun t h => ?_) (fun t h => ?_) (fun t h => h) h
  · rw [raiseAll_report]; exact h
  · rcases t.grant_cases with ⟨-, e⟩ | ⟨-, ⟨a, p, e, -⟩ | ⟨x, -, -, e⟩⟩
    · rw [e]; exact h
    · rw [e]; exact h
    · rw [e]
      exact grantForwarded_of (P := fun t => t.report.queue.length ≤ n) t x h (fun _ => h)
        fun u c d k => length_reportFault_le u c d full k

/-- A full Report Queue stands through the tasks and the end of an event: no task removes a record, and none joins. -/
theorem queue_follow_of_full {n : Nat} {u : State} {ts : List Task} (full : 16 ≤ u.report.queue.length) :
    (follow n (u, ts)).report.queue = u.report.queue := by
  have chain : ∀ v, Changes u v → v.report.queue.length ≤ u.report.queue.length := by
    intro v h
    induction h with
    | refl => exact Nat.le_refl _
    | tail _ c ih => exact c.queue_le full ih
  refine ((lasts_follow n u ts).queue.eq_of_length_le ?_).symm
  exact queue_le_settle full (chain _ (changes_runTasks _ ts u))

/-- A record produced before an event's tasks is the first of all that the event adds (R50). -/
theorem producedFirst_follow (n : Nat) (u : State) (r : Record) (ts : List Task) :
    ProducedFirst u (follow n (u.produce r, ts)) r := by
  constructor
  · intro room
    have joins : (u.produce r).report.queue = u.report.queue ++ [⟨r, u.showTime⟩] := by
      simp [produce, ReportUnit.joined, room]
    exact joins ▸ (lasts_follow n (u.produce r) ts).queue
  · intro full
    have stays : (u.produce r).report.queue = u.report.queue := by
      simp [produce, ReportUnit.joined, Nat.not_lt.2 full]
    rw [queue_follow_of_full (by rw [stays]; exact full), stays]

/-! ## What the take makes of each unit -/

namespace State

section Take

variable (s : State) (d : Directory)

/-! ### The rings and the Disposition Unit (R11, R33, R48, R54) -/

theorem disp_takeCueRing : (s.takeCueRing d).disp = { s.disp with
    windows := d.windows, cueProducer := if s.cueRestarts d then 0 else s.disp.cueProducer } := by
  unfold takeCueRing; split <;> rfl

theorem disp_takeBlocks : (s.takeBlocks d).disp = { s.disp with
    windows := d.windows
    cueProducer := if s.cueRestarts d then 0 else s.disp.cueProducer
    reportConsumer := if s.reportRestarts d then 0 else s.disp.reportConsumer } := by
  have rings : (s.takeBlocks d).disp = (s.takeRings d).disp := by simp [takeBlocks]
  have reports : (s.takeRings d).disp = { (s.takeCueRing d).disp with
      reportConsumer := if s.reportRestarts d then 0 else (s.takeCueRing d).disp.reportConsumer } := by
    unfold takeRings; split <;> rfl
  rw [rings, reports, disp_takeCueRing]

/-- The Cue Ring's restart loses its queued cues (R48), then the Report Ring's loses its queued records (R54). -/
theorem report_takeBlocks_eq :
    let lost := if s.cueRestarts d then min 255 (s.report.lost + s.cue.queue.length) else s.report.lost
    (s.takeBlocks d).report = if s.reportRestarts d then
        { s.report with queue := [], producer := 0, consumer := 0, writePending := true
                        lost := min 255 (lost + s.report.queue.length) }
      else { s.report with lost := lost } := by
  rw [report_takeBlocks, report_takeRings, report_takeCueRing]
  split <;> split <;> rfl

/-- Does a waiting WRITEBACK request stand through a take (R48, R54, R183, R185)? -/
def keptWrite (cueRing reportRing : Bool) : Writer → Bool
  | .consumer => !cueRing
  | .record | .producer => !reportRing
  | .page | .snapshot => false

theorem arb_takeCueRing : (s.takeCueRing d).arb = { s.arb with
    lookups := s.arb.lookups.filter fun l => !(s.cueRestarts d && l.who == .cueLine)
    writebacks := s.arb.writebacks.filter fun w => !(s.cueRestarts d && w == .consumer) } := by
  unfold takeCueRing
  split
  · next restarts => simp only [restarts, Bool.true_and]; rfl
  · next stays => simp [stays]

theorem arb_takeRings : (s.takeRings d).arb = { (s.takeCueRing d).arb with
    writebacks := (s.takeCueRing d).arb.writebacks.filter fun w =>
      !(s.reportRestarts d && (w == .record || w == .producer)) } := by
  unfold takeRings
  split
  · next restarts =>
    have two : (s.takeCueRing d).restartReports.arb = { (s.takeCueRing d).arb with
      writebacks := ((s.takeCueRing d).arb.writebacks.filter (· != .record)).filter (· != .producer) } := rfl
    rw [two, List.filter_filter]
    simp [restarts, Bool.and_comm, bne]
  · next stays => simp [stays]

theorem arb_takeBlocks : (s.takeBlocks d).arb = { s.arb with
    lookups := s.arb.lookups.filter fun l => !(s.cueRestarts d && l.who == .cueLine)
    writebacks := s.arb.writebacks.filter (keptWrite (s.cueRestarts d) (s.reportRestarts d)) } := by
  have pages : (s.takeBlocks d).arb = { (s.takeRings d).arb with
      writebacks := ((s.takeRings d).arb.writebacks.filter (· != .page)).filter (· != .snapshot) } := rfl
  rw [pages, arb_takeRings, arb_takeCueRing]
  simp only [List.filter_filter]
  congr 2
  funext w
  rw [Bool.eq_iff_iff]
  cases w <;> simp [keptWrite]

/-- Nothing is in flight at a take, the port having carried the directory line. -/
theorem port_takeBlocks (free : s.port = none) : (s.takeBlocks d).port = none := by
  rcases (withdraws_takeBlocks s d).port with same | ⟨f, flying, -⟩
  · rw [same, free]
  · rw [free] at flying; cases flying

/-! ### The Fault Unit and Show Control (R183, R185) -/

theorem fault_takeBlocks : (s.takeBlocks d).fault = { s.fault with writer := none, dirty := true } := by
  simp [takeBlocks, restartPage, pageAgain]

theorem ctl_takeBlocks : (s.takeBlocks d).ctl = { s.ctl with snapshot := none } := by
  simp [takeBlocks, dropSnapshot, endSnapshot]

/-! ### Inputs and lamps (R58, R117, R120) -/

theorem input_takeBlocks (i : Fin 24) :
    (s.takeBlocks d).input i = ⟨s.lines.visitor.get i, s.lines.visitor.get i, none⟩ := by
  simp [takeBlocks, input, takeZones]

theorem nextFrame_takeBlocks : (s.takeBlocks d).lamp.nextFrame =
    if s.dir.taken.isNone then some (later s.showTime Config.framePeriod) else s.lamp.nextFrame := by
  simp [takeBlocks, takeLamps]

theorem channel_takeBlocks (c : Fin 128) : (s.takeBlocks d).channel c =
    (s.channel c).taken (d.channels.get c) s.dir.taken.isNone s.showTime := by
  simp [takeBlocks, takeLamps, channel]

/-! ### The axes (R164) -/

/-- Does an enabled axis stand in a guarded zone, as the take leaves the zones (R58)? -/
def guardedAtTake (n : Fin 12) : Bool :=
  (d.axes.get n).isEnabled && (numbered 8 (d.axes.get n).zone).any fun z => ((s.takeBlocks d).zone z).guard != .clear

theorem axis_takeBlocks (n : Fin 12) : (s.takeBlocks d).axis n =
    { (s.axis n).taken (s.axisRecord n) (d.axes.get n) with guardReason := s.guardedAtTake d n, holdReason := false } := by
  let t := ((s.takeRings d).takeZones d).takeLamps d s.dir.taken.isNone
  have record : t.axisRecord n = d.axes.get n := by simp [t, axisRecord, dir_takeRings, adopt]
  have zones : ∀ z, t.zone z = (s.takeBlocks d).zone z := fun z => by simp [t, takeBlocks, zone]
  have before : t.axes = s.axes := by simp [t]
  have axes : (s.takeBlocks d).axes = (t.takeAxes s.axisRecord).axes := by simp [t, takeBlocks]
  unfold axis
  rw [axes, takeAxes, tabulate_get]
  simp only [axisZone, record, zones, before, guardedAtTake]
  cases numbered 8 (d.axes.get n).zone <;> rfl

/-- No guard is SETTLING right after a take (R58). -/
theorem guard_takeBlocks_ne_clear_iff (z : Fin 8) :
    ((s.takeBlocks d).zone z).guard ≠ .clear ↔ ((s.takeBlocks d).zone z).guard = .tripped := by
  rw [zone_takeBlocks, takenZone]
  dsimp only
  (repeat' split) <;> simp

theorem guardedAtTake_iff (n : Fin 12) : s.guardedAtTake d n = true ↔ (d.axes.get n).isEnabled = true ∧
    ∃ z : Fin 8, (d.axes.get n).zone = z.val ∧ ((s.takeBlocks d).zone z).guard = .tripped := by
  simp [guardedAtTake, Option.any_eq_true, numbered_eq_some, guard_takeBlocks_ne_clear_iff]

end Take

end State

/-- A zone at a take, its guard by the level of its input (R58). -/
theorem takenZone_eq (lines : Lines) (r : ZoneRecord) : takenZone lines r = ⟨false, none, none,
    if ∃ g : Fin 8, r.guardInput = g.val ∧ r.isEnabled = true ∧ lines.guard.get g = .active then .tripped else .clear,
    none, if r.isEnabled then r.defaultLanguage else 0, []⟩ := by
  unfold takenZone
  congr 1
  cases input : numbered 8 r.guardInput with
  | none =>
    refine (if_neg ?_).symm
    rintro ⟨g, wired, -⟩
    rw [numbered_eq_some.2 wired] at input; cases input
  | some g =>
    have only : ∀ h : Fin 8, r.guardInput = h.val ↔ g = h := fun h => by
      rw [← numbered_eq_some, input, Option.some_inj]
    simp [only]

namespace Axis

variable (old new : AxisRecord) (a : Axis)

/-- An axis disabled before or after a take is as reset leaves it but for its direction and last result (R164). -/
theorem taken_disabled (h : new.isEnabled = false ∨ old.isEnabled = false) : a.taken old new =
    { Axis.reset with direction := a.direction
                      lastResult := if a.state = .halting then some .halted else a.lastResult } := by
  unfold taken
  rw [if_pos (by rcases h with h | h <;> simp [h])]

/-- What a take leaves of an axis enabled before and after it (R164, log 47). -/
structure TakenEnabled (b : Axis) : Prop where
  homed : b.homed = (a.homed && decide (homeDirection old = homeDirection new))
  lastResult : b.lastResult = a.lastResult
  owner : b.owner = a.owner
  timedOut : b.timedOut = a.timedOut
  position : a.state ≠ .halting → b.position = a.position
  rests : a.state = .idle ∨ a.state = .unhomed →
    b.state = if a.homed = true ∧ homeDirection old = homeDirection new then .idle else .unhomed
  goesOn : a.state ≠ .idle → a.state ≠ .unhomed → b.state = a.state
  halts : a.state = .halting → b.position = (a.synced old).position ∧
    b.run = some (.slowFrom new .stopping (a.synced old).direction (.whole a.profileMs) ((a.synced old).place old)
      ((a.synced old).speed old))

theorem taken_enabled (hnew : new.isEnabled = true) (hold : old.isEnabled = true) :
    TakenEnabled old new a (a.taken old new) := by
  unfold taken
  rw [if_neg (by simp [hnew, hold])]
  by_cases keeps : homeDirection old = homeDirection new
  · cases state : a.state <;> constructor <;> simp [keeps, state]
  · cases state : a.state <;> constructor <;> simp [keeps, state]

end Axis

/-- The reasons of an axis after a take are those of its zone's guard (R58, R164). -/
theorem reasons_takeBlocks (s : State) (d : Directory) (n : Fin 12) : ((s.takeBlocks d).axis n).holdReason = false ∧
    (((s.takeBlocks d).axis n).guardReason = true ↔ (d.axes.get n).isEnabled = true ∧
      ∃ z : Fin 8, (d.axes.get n).zone = z.val ∧ ((s.takeBlocks d).zone z).guard = .tripped) := by
  have reasons := s.guardedAtTake_iff d n
  rw [axis_takeBlocks]
  exact ⟨rfl, reasons⟩

theorem axis_takeBlocks_of_disabled (s : State) (d : Directory) {n : Fin 12}
    (h : (d.axes.get n).isEnabled = false ∨ (s.axisRecord n).isEnabled = false) :
    let b := (s.takeBlocks d).axis n
    b.state = .unhomed ∧ b.homed = false ∧ b.position = 0 ∧ b.driverEnabled = false ∧ b.owner = .nobody ∧
      b.run = none ∧ b.target = none ∧ b.pendingMove = none := by
  rw [axis_takeBlocks, Axis.taken_disabled _ _ _ h]
  exact ⟨rfl, rfl, rfl, rfl, rfl, rfl, rfl, rfl⟩

theorem axis_takeBlocks_of_enabled (s : State) (d : Directory) {n : Fin 12} (hnew : (d.axes.get n).isEnabled = true)
    (hold : (s.axisRecord n).isEnabled = true) :
    Axis.TakenEnabled (s.axisRecord n) (d.axes.get n) (s.axis n) ((s.takeBlocks d).axis n) := by
  obtain ⟨homed, result, owner, timedOut, position, rests, goesOn, halts⟩ := Axis.taken_enabled _ _ (s.axis n) hnew hold
  rw [axis_takeBlocks]
  exact ⟨homed, result, owner, timedOut, position, rests, goesOn, halts⟩

/-! ## The leaving of START after a take (R172, R173) -/

/-- SAFE entry, a restore under way or none (R177, R186). -/
theorem enterSafe_frame (s : State) : s.enterSafe.1.ctl.state = .safe ∧
    s.enterSafe.1.ctl.safePending = s.ctl.safePending ∧ s.enterSafe.1.lamp.houseLights = true ∧ s.enterSafe.1.req = s.req ∧
    (s.ctl.restore = none → s.enterSafe.1.report = (s.produce (.showState s.ctl.state .safe)).report) := by
  have entered : (s.changeShow .safe).ctl.restore = s.ctl.restore := rfl
  unfold enterSafe abandonRestore
  rw [entered]
  cases s.ctl.restore <;> simp [changeShow, dropRestore, withdrawLookup]

/-- The part with SAFE no longer pending (R173). -/
def State.safeAnswered (s : State) : State := { s with ctl := { s.ctl with safePending := false } }

theorem leaveStart_taken {s : State} (start : s.ctl.state = .start) (loaded : s.dir.taken.isSome = true) (taken : Bool) :
    perform (.leaveStart taken) s =
      let e := if s.ctl.safePending then s.safeAnswered.enterSafe else (s.safeAnswered.changeShow .run, runNotices)
      (if taken then e.1.clearCooldowns else e.1, (if taken then [.dropAll .reload] else []) ++ e.2) := by
  show s.leaveStart taken = _
  obtain ⟨d, loaded⟩ := Option.isSome_iff_exists.1 loaded
  unfold leaveStart
  rw [loaded]
  simp [start, safeAnswered]

/-- With SAFE not pending the show goes to RUN. -/
theorem leaveStart_run {s : State} (start : s.ctl.state = .start) (loaded : s.dir.taken.isSome = true)
    (calm : s.ctl.safePending = false) (taken : Bool) :
    let w := s.produce (.showState .start .run)
    let run := ({ w with ctl := { s.ctl with state := .run } } : State)
    perform (.leaveStart taken) s =
      (if taken then run.clearCooldowns else run, (if taken then [.dropAll .reload] else []) ++ runNotices) := by
  intro w run
  have same : s.safeAnswered = s := by
    unfold safeAnswered
    rw [← calm]
  have changed : s.changeShow .run = run := by
    rw [changeShow, start]
    rfl
  rw [leaveStart_taken start loaded taken, calm, same, changed]
  rfl

/-- With SAFE pending the show goes to SAFE, and what follows is what the trigger brings in RUN. -/
theorem leaveStart_safe {s : State} (start : s.ctl.state = .start) (loaded : s.dir.taken.isSome = true)
    (pending : s.ctl.safePending = true) (taken : Bool) :
    perform (.leaveStart taken) s =
      (if taken then s.safeAnswered.enterSafe.1.clearCooldowns else s.safeAnswered.enterSafe.1,
        (if taken then [.dropAll .reload] else []) ++
          (perform .safeTrigger { s with ctl := { s.ctl with state := .run, safePending := false } }).2) := by
  have notices : s.safeAnswered.enterSafe.2 =
      (perform .safeTrigger { s with ctl := { s.ctl with state := .run, safePending := false } }).2 := by
    show safeNotices (s.ctl.state == .hold) = safeNotices (ShowState.run == .hold)
    rw [start]
    rfl
  rw [leaveStart_taken start loaded taken, pending, ← notices]
  rfl

/-- What the leaving of START for SAFE makes of the show after a take. -/
theorem leaveStart_safe_frame {s : State} (start : s.ctl.state = .start) (loaded : s.dir.taken.isSome = true)
    (pending : s.ctl.safePending = true) :
    let w := (perform (.leaveStart true) s).1
    w.ctl.state = .safe ∧ w.ctl.safePending = false ∧ w.lamp.houseLights = true ∧ w.req = s.clearCooldowns.req ∧
      (s.ctl.restore = none → w.report = (s.produce (.showState .start .safe)).report) := by
  obtain ⟨state, answered, lights, req, report⟩ := enterSafe_frame s.safeAnswered
  have cleared : s.safeAnswered.enterSafe.1.clearCooldowns.req = s.clearCooldowns.req := by
    unfold clearCooldowns
    rw [req]
    rfl
  have entry : (s.safeAnswered.produce (.showState s.safeAnswered.ctl.state .safe)).report =
      (s.produce (.showState .start .safe)).report := by
    rw [show s.safeAnswered.ctl.state = .start from start]
    rfl
  rw [leaveStart_safe start loaded pending true]
  exact ⟨state, answered, lights, cleared, fun none => (report none).trans entry⟩

/-! ## The rings after the event of a take (R31, R33, R48, R54) -/

section AfterTake

variable {s t : State} {d : Directory} {r : Record} (lasts : Lasts ((s.takeBlocks d).produce r) t)
include lasts

theorem directory_after_take : t.dir.taken = some d ∧ t.dir.sequence = d.sequence ∧
    t.dir.locked = (s.dir.locked || d.lockOnTake == 1) ∧ t.disp.windows = d.windows := by
  obtain ⟨taken, locked, sequence, disp, -⟩ := lasts
  rw [produce_dir, dir_takeBlocks] at taken locked sequence
  rw [produce_disp, disp_takeBlocks] at disp
  exact ⟨taken, sequence, locked, by rw [disp]⟩

theorem cues_after_restart (restarts : s.cueRestarts d = true) :
    t.cue = ⟨0, 0, 0, [], true⟩ ∧ t.disp.cueProducer = 0 := by
  rw [lasts.cue, lasts.disp, produce_cue, produce_disp, cue_takeBlocks, cue_takeRings, disp_takeBlocks, restarts]
  exact ⟨rfl, rfl⟩

theorem cues_after_stay (stays : s.cueRestarts d = false) : t.cue = s.cue ∧ t.disp.cueProducer = s.disp.cueProducer := by
  rw [lasts.cue, lasts.disp, produce_cue, produce_disp, cue_takeBlocks, cue_takeRings, disp_takeBlocks, stays]
  exact ⟨rfl, rfl⟩

theorem reports_after_restart (restarts : s.reportRestarts d = true) :
    t.report.producer = 0 ∧ t.report.consumer = 0 ∧ t.disp.reportConsumer = 0 ∧ t.report.writePending = true ∧
      [⟨r, s.showTime⟩] <+: t.report.queue := by
  obtain ⟨-, -, -, disp, -, producer, consumer, writePending, queue⟩ := lasts
  have joined : ((s.takeBlocks d).produce r).report = (s.takeBlocks d).report.joined ⟨r, s.showTime⟩ := by
    simp [produce]
  rw [joined, report_takeBlocks_eq, restarts] at producer consumer writePending queue
  rw [produce_disp, disp_takeBlocks, restarts] at disp
  exact ⟨producer, consumer, by rw [disp]; rfl, writePending, queue⟩

theorem reports_after_stay (stays : s.reportRestarts d = false) :
    t.report.producer = s.report.producer ∧ t.report.consumer = s.report.consumer := by
  obtain ⟨producer, consumer, -⟩ := joined_counts (s.takeBlocks d).report ⟨r, (s.takeBlocks d).showTime⟩
  refine ⟨lasts.producer.trans (producer.trans ?_), lasts.consumer.trans (consumer.trans ?_)⟩ <;>
    rw [report_takeBlocks_eq, stays] <;> rfl

end AfterTake

/-- RELOAD DONE is the first record of the event where the Report Ring stays (R33, log 20). -/
theorem producedFirst_take {s : State} {d : Directory} (stays : s.reportRestarts d = false) (n : Nat) (r : Record)
    (ts : List Task) : ProducedFirst s (follow n ((s.takeBlocks d).produce r, ts)) r := by
  have first := producedFirst_follow n (s.takeBlocks d) r ts
  have queue : (s.takeBlocks d).report.queue = s.report.queue := by rw [report_takeBlocks_eq, stays]; rfl
  unfold ProducedFirst at *
  rwa [queue, takeBlocks_showTime] at first

/-! ## The take -/

/-- The event of a take (R31 to R33). -/
theorem asks_take {s : State} {f : InFlight} {n : Nat} {data : List Byte} (released : s.resetLow = false)
    (flying : s.port = some f) (purpose : f.purpose = .directory) (load : s.dir.load = .loading n) (last : 63 ≤ n)
    (length : data.length = f.length) (passed : firstFailure (s.dir.image ++ data) = none) :
    let d := directoryOf (s.dir.image ++ data)
    Asks (.directoryLineArrives data) s
      ((s.freePort.takeBlocks d).produce (.reloadDone d.sequence (s.dir.locked || d.lockOnTake == 1)
        (s.freePort.cueRestarts d) (s.freePort.reportRestarts d)))
      ((fins 12).map .stallAtTake ++ [.leaveStart true]) := by
  intro d
  have locked : (s.freePort.takeBlocks d).dir.locked = (s.dir.locked || d.lockOnTake == 1) := by
    rw [dir_takeBlocks]
    rfl
  have event := exec_lastDirectoryLine released flying purpose load last length
  simp only [judgeImage, passed, takeDirectory] at event
  rw [locked] at event
  exact event

/-- Settles O28: what the tasks and the end of the event keep of the take, each unit's share of it, and the leaving of
START. -/
theorem directoryIsTaken : Obligations.DirectoryIsTaken := by
  unfold Obligations.DirectoryIsTaken
  intro s f n data released flying purpose load last length passed d cueRing reportRing locked
  let r : Record := .reloadDone d.sequence locked cueRing reportRing
  let tasks : List Task := (fins 12).map .stallAtTake ++ [.leaveStart true]
  have asks : Asks (.directoryLineArrives data) s ((s.freePort.takeBlocks d).produce r) tasks :=
    asks_take released flying purpose load last length passed
  have answer : exec (.directoryLineArrives data) s = .next (follow 0 ((s.freePort.takeBlocks d).produce r, tasks)) := asks
  have lasts := lasts_follow 0 ((s.freePort.takeBlocks d).produce r) tasks
  have first := fun stays => producedFirst_take (s := s.freePort) (d := d) stays 0 r tasks
  generalize follow 0 ((s.freePort.takeBlocks d).produce r, tasks) = t at answer lasts first
  obtain ⟨taken, sequence, lock, windows⟩ := directory_after_take lasts
  refine ⟨t, answer, taken, sequence, lock, windows, cues_after_restart (s := s.freePort) lasts,
    cues_after_stay (s := s.freePort) lasts, reports_after_restart (s := s.freePort) lasts, fun stays => ?reportsStay,
    ⟨asks, ?zones, input_takeBlocks _ _, houseLights_takeBlocks _ _, fun first => ?firstLamps, fun later => ?laterLamps,
      fun n => ?axes, fault_takeBlocks _ _, ctl_takeBlocks _ _, report_takeBlocks_eq s.freePort d,
      arb_takeBlocks s.freePort d, port_takeBlocks _ _ rfl⟩,
    fun v start loaded => ⟨fun calm => ?toRun, fun pending => ?toSafe⟩⟩
  case reportsStay =>
    obtain ⟨producer, consumer⟩ := reports_after_stay (s := s.freePort) lasts stays
    exact ⟨producer, consumer, first stays⟩
  case zones => exact fun z => (zone_takeBlocks _ _ z).trans (takenZone_eq _ _)
  case firstLamps =>
    have untaken : s.freePort.dir.taken.isNone = true := by simp [first]
    exact ⟨by rw [nextFrame_takeBlocks, untaken]; rfl, fun c => by rw [channel_takeBlocks, untaken]; rfl⟩
  case laterLamps =>
    have again : s.freePort.dir.taken.isNone = false := by simpa [← Option.isSome_iff_ne_none] using later
    exact ⟨by rw [nextFrame_takeBlocks, again]; rfl, fun c => by rw [channel_takeBlocks, again]; rfl⟩
  case axes =>
    obtain ⟨hold, guard⟩ := reasons_takeBlocks s.freePort d n
    refine ⟨hold, guard, axis_takeBlocks_of_disabled s.freePort d, fun enabled was => ?_⟩
    obtain ⟨homed, result, owner, timedOut, position, rests, goesOn, halts⟩ :=
      axis_takeBlocks_of_enabled s.freePort d enabled was
    exact ⟨homed, result, owner, position, rests, goesOn, fun halting =>
      ⟨(halts halting).1, timedOut, (halts halting).2⟩⟩
  case toRun => exact ⟨leaveStart_run start loaded calm true, leaveStart_run start loaded calm false⟩
  case toSafe =>
    obtain ⟨state, answered, lights, req, report⟩ := leaveStart_safe_frame start loaded pending
    refine ⟨state, answered, lights, req, report, ?_, ?_⟩
    · rw [leaveStart_safe start loaded pending true]
      rfl
    · rw [leaveStart_safe start loaded pending false]
      rfl

end Sys2Proof.Machine
end

section
/-! PROOFS: the laws of the attention output (R55) and of the Report Ring (R49) over a step. -/

namespace Sys2Proof.Machine

theorem AttentionLaw.tick {s : State} (h : AttentionLaw s) : AttentionLaw s.tick := by
  unfold State.tick; split <;> exact h

/-- The end of an event drives the attention output (R55). -/
theorem attentionLaw_settle (s : State) : AttentionLaw s.settle := by
  obtain ⟨-, -, attention, -⟩ := State.closes_settle s
  exact attention

/-- Settles O6: nothing of the law need hold inside an event, whose end drives the output anew. -/
theorem stepKeepsAttentionLaw : Obligations.StepKeepsAttentionLaw := by
  intro s t h e
  exact step_keeps AttentionLaw (fun _ => True) (pre := fun _ _ => trivial) (change := fun _ => id)
    (settle := fun _ => attentionLaw_settle _) (lines := fun _ _ => id) (pending := fun _ _ => id)
    (reset := fun _ => attentionLaw_reset) (tick := fun _ => AttentionLaw.tick) h e

theorem RingLaw.tick {s : State} (h : RingLaw s) : RingLaw s.tick := by
  obtain ⟨report, -, arb, port, -, dir⟩ := tick_frame s
  unfold RingLaw State.writeWaits State.carries State.carriesLive at *; rwa [report, arb, port, dir]

/-- Settles O13: `RingLaw` holds throughout an event, at its end and at reset. -/
theorem stepKeepsRingLaw : Obligations.StepKeepsRingLaw := by
  intro s t h e
  exact step_keeps RingLaw RingLaw (pre := fun _ => id) (change := Change.ring) (settle := RingLaw.settle)
    (lines := fun _ _ => id) (pending := fun _ _ => id) (reset := fun _ => ringLaw_reset)
    (tick := fun _ => RingLaw.tick) h e

end Sys2Proof.Machine
end

section
/-! PROOFS: the traffic of the Cue Ring and the Report Ring (file 03): the cues of a line, the two index words and the report
records, each from memory's answer to its transaction. -/

namespace Sys2Proof.Machine

open State

/-! ## The lines of the Cue Ring (R42, R43, R48) -/

/-- As many entries join as are due, and F passes them. -/
theorem enterCues_map (s : State) (count : Nat) (entry : Nat → CueEntry) :
    s.enterCues ((List.range count).map entry) = { s with
      cue := { s.cue with queue := s.cue.queue ++ (List.range count).map entry
                          fetched := s.cue.fetched + BitVec.ofNat 16 count } } := by
  simp [enterCues]

theorem cueSlotCount_of_taken {s : State} {d : Directory} (taken : s.dir.taken = some d) :
    s.cueSlotCount = d.cueSlots := by
  simp [cueSlotCount, taken]

/-- Settles O29. -/
theorem cueLineEntersCues : Obligations.CueLineEntersCues := by
  unfold Obligations.CueLineEntersCues
  intro s f d released flying purpose taken produced ahead count index entered
  have named : f.purpose.isCueLine = true := by rw [purpose]; rfl
  have due : s.entriesDue s.cueSlotCount = count := by rw [cueSlotCount_of_taken taken]; rfl
  have arrives : ∀ data : List Byte, data.length = f.length → exec (.cueLineArrives data) s = .next (conclude
      (if f.live then s.freePort.enterCues (s.cuesOfLine data) else s.freePort, [])) := fun data length =>
    onAnswer_of_flying _ released flying (by simp [named, length])
  have fails : exec .cueFetchFailed s = .next (conclude
      (if f.live then (s.freePort.log .cueFetchFailed [f.addr]).enterCues s.failedEntries
       else s.freePort.log .cueFetchFailed [f.addr], [])) :=
    onAnswer_of_flying _ released flying named
  refine ⟨fun live => ⟨fun data length => ?entered, ?failed⟩, fun dead => ⟨fun data length => ?discarded, ?logged⟩⟩
  case entered =>
    refine leaves_of_conclude ((arrives data length).trans ?_)
    rw [if_pos live, cuesOfLine, due, enterCues_map, cueSlotCount_of_taken taken]
    rfl
  case failed =>
    refine leaves_of_conclude (fails.trans ?_)
    rw [if_pos live, failedEntries, due, enterCues_map]
    rfl
  case discarded =>
    refine leaves_of_conclude ((arrives data length).trans ?_)
    rw [dead]
    rfl
  case logged =>
    refine leaves_of_conclude (fails.trans ?_)
    rw [dead]
    rfl

/-! ## The index words (R47, R48, R52, R54) -/

/-- An index word holds the index in its low two bytes (12.3). -/
theorem indexWord_eq (i : Index) : indexWord i = [i.setWidth 8, (i >>> 8).setWidth 8, 0, 0] := by
  have low := i.isLt
  have first : byteOf i.toNat = i.setWidth 8 := BitVec.eq_of_toNat_eq (by simp [byteOf])
  have second : byteOf (i.toNat / 256) = (i >>> 8).setWidth 8 :=
    BitVec.eq_of_toNat_eq (by simp [byteOf, Nat.shiftRight_eq_div_pow])
  have third : i.toNat / 65536 = 0 := by omega
  have fourth : i.toNat / 16777216 = 0 := by omega
  rw [indexWord, bytes32, first, second, third, fourth]
  rfl

section Answers

variable {s : State} {f : InFlight} {v : Index}

theorem exec_consumerWriteDone (released : s.resetLow = false) (flying : s.port = some f)
    (purpose : f.purpose = .consumer v) : exec .consumerWriteDone s = .next (conclude
      (if f.live && s.cue.consumer == v then { s.freePort with cue := { s.cue with writePending := false } }
       else s.freePort, [])) := by
  refine (onAnswer_of_flying _ released flying (by rw [purpose]; rfl)).trans ?_
  rw [purpose]
  rfl

theorem exec_producerWriteDone (released : s.resetLow = false) (flying : s.port = some f)
    (purpose : f.purpose = .producer v) : exec .producerWriteDone s = .next (conclude
      (if f.live && s.report.producer == v then { s.freePort with report := { s.report with writePending := false } }
       else s.freePort, [])) := by
  refine (onAnswer_of_flying _ released flying (by rw [purpose]; rfl)).trans ?_
  rw [purpose]
  rfl

end Answers

/-- The consumer write stops being pending where the count has not moved on (R47). -/
theorem consumerDone_eq (s : State) (v : Index) :
    (if s.cue.consumer == v then { s.freePort with cue := { s.cue with writePending := false } } else s.freePort) =
      { s.freePort with cue := { s.cue with writePending := s.cue.writePending && s.cue.consumer != v } } := by
  cases same : s.cue.consumer == v <;> simp [bne, same, freePort]

/-- The producer write stops being pending where the count has not moved on (R52). -/
theorem producerDone_eq (s : State) (v : Index) :
    (if s.report.producer == v then { s.freePort with report := { s.report with writePending := false } }
      else s.freePort) =
      { s.freePort with report := { s.report with writePending := s.report.writePending && s.report.producer != v } } := by
  cases same : s.report.producer == v <;> simp [bne, same, freePort]

/-- Settles O30. -/
theorem indexWritesEnd : Obligations.IndexWritesEnd := by
  unfold Obligations.IndexWritesEnd
  constructor
  · intro s d word
    exact ⟨by rw [writeOf, indexWord_eq], by rw [writeOf, indexWord_eq]⟩
  intro s f v released flying free
  refine ⟨fun consumer => ?consumer, fun producer => ?producer⟩
  case consumer =>
    have done := exec_consumerWriteDone released flying consumer
    refine ⟨fun live => ?_, fun dead => ?_, ?_⟩
    · rw [live, Bool.true_and, consumerDone_eq] at done
      exact leaves_of_conclude done
    · rw [dead] at done
      exact leaves_of_conclude done
    · refine leaves_of_conclude ((onAnswer_of_flying _ released flying (by rw [consumer]; rfl)).trans ?_)
      rw [consumer]
      rfl
  case producer =>
    have done := exec_producerWriteDone released flying producer
    refine ⟨fun live => ?_, fun dead => ?_, ?_⟩
    · rw [live, Bool.true_and, producerDone_eq] at done
      exact leaves_of_conclude done
    · rw [dead] at done
      exact leaves_of_conclude done
    · refine leaves_of_conclude ((onAnswer_of_flying _ released flying (by rw [producer]; rfl)).trans ?_)
      rw [producer]
      rfl

/-! ## The records of the Report Ring (R50, R51, R54) -/

/-- Settles O31. -/
theorem recordsAreWritten : Obligations.RecordsAreWritten := by
  unfold Obligations.RecordsAreWritten
  intro s
  refine ⟨fun r => ?joins, fun d r rest queue => ?word, ?answers⟩
  case joins => rfl
  case word => rw [writeOf, queue]; rfl
  case answers =>
    intro f n released flying purpose free
    have named : f.purpose.isRecord = true := by rw [purpose]; rfl
    have done : exec .reportRecordDone s = .next (conclude
        (if f.live then s.freePort.recordWritten n else s.freePort, [])) := by
      refine (onAnswer_of_flying _ released flying named).trans ?_
      rw [purpose]
      rfl
    have fails : exec .reportWriteFailed s = .next (conclude
        ((if f.live then s.freePort.recordLost else s.freePort).log .reportWriteFailed [f.addr], [])) :=
      onAnswer_of_flying _ released flying named
    refine ⟨fun live => ?_, fun dead => ?_⟩
    · rw [if_pos live] at done fails
      exact ⟨leaves_of_conclude done, leaves_of_conclude fails⟩
    · rw [dead] at done fails
      exact ⟨leaves_of_conclude done, leaves_of_conclude fails⟩

end Sys2Proof.Machine
end

section
/-! PROOFS: the takes of cues (R44 to R46). One command takes the cues of each kind and hands them to one unit
(`exec_commandOf`); every unit answers first (`answeredFirst_unitOf`), and refuses what is outside its fixed ranges
(`unitOf_of_outOfRange`). -/

namespace Sys2Proof.Machine

open State

/-! ## The command and the unit of each kind -/

/-- The command that takes a cue of a kind (R44). -/
def commandOf : CueKind → Instr
  | .requestScene => .requestScene
  | .stopScene => .stopScene
  | .stopAll => .stopAll
  | .closeZone => .closeZone
  | .openZone => .openZone
  | .setLanguage => .setLanguage
  | .setBaseLevel => .setBaseLevel
  | .houseLights => .houseLights
  | .homeAxis => .homeAxis
  | .holdShow => .holdShow
  | .releaseShow => .releaseShow
  | .clearFault => .clearFault
  | .enterSafe => .enterSafe
  | .leaveSafe => .leaveSafe
  | .restoreShow => .restoreShow
  | .mark => .mark

/-- What the unit a cue is handed to makes of it (R45). -/
def unitOf : CueKind → State → TakenCue → Effect
  | .requestScene => cueRequestScene
  | .stopScene => cueStopScene
  | .stopAll => cueStopAll
  | .closeZone => cueCloseZone
  | .openZone => cueOpenZone
  | .setLanguage => cueSetLanguage
  | .setBaseLevel => cueSetBaseLevel
  | .houseLights => cueHouseLights
  | .homeAxis => cueHomeAxis
  | .holdShow => cueHoldShow
  | .releaseShow => cueReleaseShow
  | .clearFault => cueClearFault
  | .enterSafe => cueEnterSafe
  | .leaveSafe => cueLeaveSafe
  | .restoreShow => cueRestoreShow
  | .mark => cueMark

theorem exec_commandOf (kind : CueKind) (s : State) : exec (commandOf kind) s = takeCue s (some kind) (unitOf kind) := by
  cases kind <;> rfl

section Front

variable {s : State} {index : Index} {code : Byte} {tag : Index} {params : List Byte} {rest : List CueEntry}

/-- The take of the cue at the head, of a kind or of none (R44). -/
theorem takeCue_of_front {kind : Option CueKind} (released : s.resetLow = false) (opened : s.ctl.state ≠ .start)
    (front : s.cue.queue = .cue index code tag params :: rest) (is : CueKind.ofByte code = kind)
    (effect : State → TakenCue → Effect) :
    takeCue s kind effect = .next (conclude (effect (s.consumed rest) ⟨index, tag, params⟩)) := by
  simp [takeCue, front, react, released, opened, is]

theorem exec_commandOf_of_front {kind : CueKind} (released : s.resetLow = false) (opened : s.ctl.state ≠ .start)
    (front : s.cue.queue = .cue index code tag params :: rest) (is : CueKind.ofByte code = some kind) :
    exec (commandOf kind) s = .next (conclude (unitOf kind (s.consumed rest) ⟨index, tag, params⟩)) := by
  rw [exec_commandOf, takeCue_of_front released opened front is]

theorem exec_unknownKind_of_front (released : s.resetLow = false) (opened : s.ctl.state ≠ .start)
    (front : s.cue.queue = .cue index code tag params :: rest) (is : CueKind.ofByte code = none) :
    exec .unknownKind s = .next (conclude ((s.consumed rest).refuse ⟨index, tag, params⟩ .unknownKind)) :=
  takeCue_of_front released opened front is fun t c => t.refuse c .unknownKind

theorem exec_failedEntryTake_of_front (released : s.resetLow = false) (opened : s.ctl.state ≠ .start)
    (front : s.cue.queue = .failed index :: rest) : exec .failedEntryTake s =
      .next (conclude ((s.consumed rest).produce (.cueResult index 0 .failed 0), [])) := by
  show execFailedEntryTake s = _
  simp [execFailedEntryTake, front, react, released, opened]

end Front

/-! ## Every unit answers first (R46) -/

/-- A cue's CUE RESULT joins the Report Queue of `s` before all else that `t` has more, and the Cue Unit stands. -/
def AnsweredFirst (s : State) (c : TakenCue) (t : State) : Prop :=
  ∃ result value, (s.answer c result value).Follows t ∧ t.cue = s.cue

section Units

variable (s : State) (c : TakenCue)

theorem answeredFirst_answer (result : CueResult) (value : Word) : AnsweredFirst s c (s.answer c result value) :=
  ⟨result, value, .refl _, rfl⟩

variable {s c}

theorem AnsweredFirst.follows {t u : State} (first : AnsweredFirst s c t) (grows : t.Follows u) (cue : u.cue = t.cue) :
    AnsweredFirst s c u := by
  obtain ⟨result, value, grew, stood⟩ := first
  exact ⟨result, value, grew.trans grows, cue.trans stood⟩

/-- What leaves the Report Unit and the Cue Unit alone comes behind the answer. -/
theorem AnsweredFirst.set {t u : State} (first : AnsweredFirst s c t) (report : u.report = t.report)
    (cue : u.cue = t.cue) : AnsweredFirst s c u := first.follows (follows_of_report report) cue

theorem cue_of_outer {t u : State} (same : u.outer = t.outer) : u.cue = t.cue := congrArg Outer.cue same

theorem AnsweredFirst.dropWhere {t : State} (first : AnsweredFirst s c t) (p : Request → Bool) (reason : DropReason) :
    AnsweredFirst s c (t.dropWhere p reason) :=
  first.follows (follows_dropWhere t p reason) (cue_of_outer (outer_dropWhere t p reason))

theorem AnsweredFirst.changeShow {t : State} (first : AnsweredFirst s c t) (next : ShowState) :
    AnsweredFirst s c (t.changeShow next) := first.follows (follows_changeShow t next) rfl

theorem AnsweredFirst.enterSafe {t : State} (first : AnsweredFirst s c t) : AnsweredFirst s c t.enterSafe.1 :=
  first.follows (follows_enterSafe t) (cue_of_outer (outer_enterSafe t))

theorem AnsweredFirst.setZone {t : State} (first : AnsweredFirst s c t) (z : Fin 8) (x : Zone) :
    AnsweredFirst s c (t.setZone z x) := first.set rfl rfl

theorem AnsweredFirst.pauseVoices {t : State} (first : AnsweredFirst s c t) : AnsweredFirst s c t.pauseVoices :=
  first.set rfl rfl

/-- The holding of the slots touches neither records nor cues (R113). -/
theorem holdSlots_frame (t : State) : t.holdSlots.report = t.report ∧ t.holdSlots.cue = t.cue := by
  unfold holdSlots
  generalize fins 8 = slots
  induction slots generalizing t with
  | nil => exact ⟨rfl, rfl⟩
  | cons k slots ih =>
    rw [List.foldl_cons]
    obtain ⟨report, cue⟩ := ih (if (t.slot k).state = .running then
      (t.setSlot k { t.slot k with state := .held }).freezeFades k else t)
    rw [report, cue]
    split <;> exact ⟨rfl, rfl⟩

theorem AnsweredFirst.enterHold {t : State} (first : AnsweredFirst s c t) (reason : SnapshotReason) :
    AnsweredFirst s c (t.enterHold reason).1 := by
  obtain ⟨report, cue⟩ := holdSlots_frame (t.changeShow .hold)
  exact ((first.changeShow .hold).set report cue).pauseVoices

variable (s c)

theorem answeredFirst_cueRequestScene : AnsweredFirst s c (s.cueRequestScene c).1 := by
  unfold cueRequestScene; split
  · exact answeredFirst_answer ..
  · split
    · exact answeredFirst_answer ..
    · exact answeredFirst_answer ..
    · exact (answeredFirst_answer s c .queued 0).set rfl rfl

theorem answeredFirst_cueStopScene : AnsweredFirst s c (s.cueStopScene c).1 := by
  unfold cueStopScene; split
  · exact answeredFirst_answer ..
  · split
    · exact (answeredFirst_answer s c .accepted 0).dropWhere _ _
    · exact answeredFirst_answer ..

theorem answeredFirst_cueCloseZone : AnsweredFirst s c (s.cueCloseZone c).1 := by
  unfold cueCloseZone; split
  · exact answeredFirst_answer ..
  · split
    · exact ((answeredFirst_answer s c .accepted 0).setZone _ _).dropWhere _ _
    · exact answeredFirst_answer ..

theorem answeredFirst_cueOpenZone : AnsweredFirst s c (s.cueOpenZone c).1 := by
  unfold cueOpenZone; split
  · exact answeredFirst_answer ..
  · split
    · exact (answeredFirst_answer s c .accepted 0).setZone _ _
    · exact answeredFirst_answer ..

theorem answeredFirst_cueSetLanguage : AnsweredFirst s c (s.cueSetLanguage c).1 := by
  unfold cueSetLanguage; split
  · split
    · exact (answeredFirst_answer s c .accepted 0).setZone _ _
    · exact answeredFirst_answer ..
  · exact answeredFirst_answer ..

theorem answeredFirst_cueSetBaseLevel : AnsweredFirst s c (s.cueSetBaseLevel c).1 := by
  unfold cueSetBaseLevel; split
  · exact answeredFirst_answer ..
  · exact (answeredFirst_answer s c .accepted 0).set rfl rfl

theorem answeredFirst_cueHouseLights : AnsweredFirst s c (s.cueHouseLights c).1 := by
  unfold cueHouseLights; split
  · exact answeredFirst_answer ..
  · split
    · exact answeredFirst_answer ..
    · exact (answeredFirst_answer s c .accepted 0).set rfl rfl

theorem answeredFirst_cueHomeAxis : AnsweredFirst s c (s.cueHomeAxis c).1 := by
  unfold cueHomeAxis; split
  · exact answeredFirst_answer ..
  · unfold cueHomeOne; (repeat' split) <;> exact answeredFirst_answer ..
  · unfold cueHomeAll; split
    · exact answeredFirst_answer ..
    · exact (answeredFirst_answer s c .accepted _).set rfl rfl

theorem answeredFirst_cueHoldShow : AnsweredFirst s c (s.cueHoldShow c).1 := by
  unfold cueHoldShow; split
  · exact (answeredFirst_answer s c .accepted 0).enterHold .hold
  · exact answeredFirst_answer ..

theorem answeredFirst_cueReleaseShow : AnsweredFirst s c (s.cueReleaseShow c).1 := by
  unfold cueReleaseShow; split
  · exact (answeredFirst_answer s c .accepted 0).changeShow .run
  · exact answeredFirst_answer ..

theorem answeredFirst_cueClearFault : AnsweredFirst s c (s.cueClearFault c).1 := by
  unfold cueClearFault; split
  · exact answeredFirst_answer ..
  · exact (answeredFirst_answer s c .accepted 0).set rfl rfl

theorem answeredFirst_cueEnterSafe : AnsweredFirst s c (s.cueEnterSafe c).1 := by
  have accepted := answeredFirst_answer s c .accepted 0
  unfold cueEnterSafe
  cases s.ctl.state
  case run => exact accepted.enterSafe
  case hold => exact accepted.enterSafe
  case draining => exact accepted.enterSafe
  all_goals exact accepted

theorem answeredFirst_cueLeaveSafe : AnsweredFirst s c (s.cueLeaveSafe c).1 := by
  unfold cueLeaveSafe; split
  · exact answeredFirst_answer ..
  · split
    · exact answeredFirst_answer ..
    · exact (answeredFirst_answer s c .accepted 0).changeShow .run

theorem answeredFirst_cueRestoreShow : AnsweredFirst s c (s.cueRestoreShow c).1 := by
  unfold cueRestoreShow; split
  · exact answeredFirst_answer ..
  · split
    · exact (answeredFirst_answer s c .accepted 0).set rfl rfl
    · exact answeredFirst_answer ..

theorem answeredFirst_unitOf (kind : CueKind) : AnsweredFirst s c (unitOf kind s c).1 := by
  cases kind
  case requestScene => exact answeredFirst_cueRequestScene s c
  case stopScene => exact answeredFirst_cueStopScene s c
  case stopAll => exact answeredFirst_answer ..
  case closeZone => exact answeredFirst_cueCloseZone s c
  case openZone => exact answeredFirst_cueOpenZone s c
  case setLanguage => exact answeredFirst_cueSetLanguage s c
  case setBaseLevel => exact answeredFirst_cueSetBaseLevel s c
  case houseLights => exact answeredFirst_cueHouseLights s c
  case homeAxis => exact answeredFirst_cueHomeAxis s c
  case holdShow => exact answeredFirst_cueHoldShow s c
  case releaseShow => exact answeredFirst_cueReleaseShow s c
  case clearFault => exact answeredFirst_cueClearFault s c
  case enterSafe => exact answeredFirst_cueEnterSafe s c
  case leaveSafe => exact answeredFirst_cueLeaveSafe s c
  case restoreShow => exact answeredFirst_cueRestoreShow s c
  case mark => exact answeredFirst_answer ..

theorem changes_unitOf (kind : CueKind) : Changes s (unitOf kind s c).1 := by
  cases kind
  case requestScene => exact changes_cueRequestScene s c
  case stopScene => exact changes_cueStopScene s c
  case stopAll => exact changes_answer ..
  case closeZone => exact changes_cueCloseZone s c
  case openZone => exact changes_cueOpenZone s c
  case setLanguage => exact changes_cueSetLanguage s c
  case setBaseLevel => exact changes_cueSetBaseLevel s c
  case houseLights => exact changes_cueHouseLights s c
  case homeAxis => exact changes_cueHomeAxis s c
  case holdShow => exact changes_cueHoldShow s c
  case releaseShow => exact changes_cueReleaseShow s c
  case clearFault => exact changes_cueClearFault s c
  case enterSafe => exact changes_cueEnterSafe s c
  case leaveSafe => exact changes_cueLeaveSafe s c
  case restoreShow => exact changes_cueRestoreShow s c
  case mark => exact changes_answer ..

end Units

/-- A chain of changes takes no record into a Report Queue that is full (R50). -/
theorem Changes.queue_le {s t : State} (chain : Changes s t) (full : 16 ≤ s.report.queue.length) :
    t.report.queue.length ≤ s.report.queue.length := by
  induction chain with
  | refl => exact Nat.le_refl _
  | tail _ change ih => exact change.queue_le full ih

/-- The answer of an effect that answers first is the first record of its event. -/
theorem AnsweredFirst.producedFirst {s t : State} {c : TakenCue} (first : AnsweredFirst s c t) (chain : Changes s t)
    (n : Nat) (ts : List Task) :
    ∃ result value, ProducedFirst s (follow n (t, ts)) (.cueResult c.index c.tag result value) := by
  obtain ⟨result, value, grows, -⟩ := first
  refine ⟨result, value, fun room => ?room, fun full => ?full⟩
  case room =>
    have joins : (s.answer c result value).report.queue =
        s.report.queue ++ [⟨.cueResult c.index c.tag result value, s.showTime⟩] := by
      simp [answer, ReportUnit.joined, room]
    exact joins ▸ grows.trans (lasts_follow n t ts).queue
  case full =>
    have lost : (s.answer c result value).report.queue = s.report.queue := by
      simp [answer, ReportUnit.joined, Nat.not_lt.2 full]
    have stays : t.report.queue = s.report.queue :=
      ((lost ▸ grows : s.report.queue <+: t.report.queue).eq_of_length_le (chain.queue_le full)).symm
    rw [queue_follow_of_full (by rw [stays]; exact full), stays]

/-- Settles O32: the take is the work of the kind's unit on the part past the cue. -/
theorem cueIsTaken : Obligations.CueIsTaken := by
  unfold Obligations.CueIsTaken
  intro s c kind released opened pair index code tag params rest front is
  have command : c = commandOf kind := by cases kind <;> simpa [commandOf] using pair
  let u := s.consumed rest
  let taken : TakenCue := ⟨index, tag, params⟩
  have first := answeredFirst_unitOf u taken kind
  obtain ⟨result, value, produced⟩ :=
    first.producedFirst (changes_unitOf u taken kind) 0 (unitOf kind u taken).2
  obtain ⟨-, -, -, cue⟩ := first
  refine ⟨_, result, value, ?_, produced, (lasts_follow _ _ _).cue.trans cue⟩
  rw [command]
  exact exec_commandOf_of_front released opened front is

/-! ## What the Cue Unit answers itself (R44 to R46) -/

/-- Outside the fixed ranges of a kind's parameters (R45). -/
def OutOfRange (params : List Byte) : CueKind → Prop
  | .requestScene | .stopScene => 32 ≤ paramByte params 4
  | .closeZone | .openZone => 8 ≤ paramByte params 4
  | .setLanguage => 8 ≤ paramByte params 4 ∨ 4 ≤ paramByte params 5
  | .setBaseLevel => 127 < paramByte params 4 ∨ paramByte params 5 = 0 ∨
      128 < paramByte params 4 + paramByte params 5 ∨ 1000 < param16 params 6 ∨ 60000 < param16 params 8
  | .houseLights => 2 ≤ paramByte params 4
  | .homeAxis => 12 ≤ paramByte params 4 ∧ paramByte params 4 ≠ 0xFF
  | .clearFault => 5 ≤ paramByte params 4
  | .stopAll | .holdShow | .releaseShow | .enterSafe | .leaveSafe | .restoreShow | .mark => False

theorem numbered_of_le {n x : Nat} (h : n ≤ x) : numbered n x = none := dif_neg (Nat.not_lt.2 h)

theorem switchParam_of_le {params : List Byte} (h : 2 ≤ paramByte params 4) : switchParam params = none := by
  unfold switchParam
  split
  · omega
  · omega
  · rfl

theorem bankParam_of_le {params : List Byte} (h : 5 ≤ paramByte params 4) : bankParam params = none := by
  unfold bankParam Bank.ofCode
  split
  case h_6 => rfl
  all_goals omega

theorem baseLevelParam_of_outOfRange {params : List Byte} (h : OutOfRange params .setBaseLevel) :
    baseLevelParam params = none := by
  have out : 127 < paramByte params 4 ∨ paramByte params 5 = 0 ∨ 128 < paramByte params 4 + paramByte params 5 ∨
      1000 < param16 params 6 ∨ 60000 < param16 params 8 := h
  exact if_neg (by dsimp only; omega)

/-- A parameter outside its fixed range is refused, with no other effect (R45). -/
theorem unitOf_of_outOfRange (s : State) {c : TakenCue} {kind : CueKind} (out : OutOfRange c.params kind) :
    unitOf kind s c = s.refuse c .range := by
  cases kind
  case requestScene => simp only [unitOf, cueRequestScene, sceneParam, numbered_of_le out]
  case stopScene => simp only [unitOf, cueStopScene, sceneParam, numbered_of_le out]
  case closeZone => simp only [unitOf, cueCloseZone, zoneParam, numbered_of_le out]
  case openZone => simp only [unitOf, cueOpenZone, zoneParam, numbered_of_le out]
  case setLanguage =>
    rcases out with zone | language
    · simp only [unitOf, cueSetLanguage, zoneParam, numbered_of_le zone]
    · simp only [unitOf, cueSetLanguage, languageParam, numbered_of_le language]
      cases zoneParam c.params <;> rfl
  case setBaseLevel => simp only [unitOf, cueSetBaseLevel, baseLevelParam_of_outOfRange out]
  case houseLights => simp only [unitOf, cueHouseLights, switchParam_of_le out]
  case homeAxis =>
    obtain ⟨one, all⟩ := out
    simp only [unitOf, cueHomeAxis, axisParam, if_neg all, numbered_of_le one, Option.map_none]
  case clearFault => simp only [unitOf, cueClearFault, bankParam_of_le out]
  all_goals exact out.elim

/-- Settles O33. -/
theorem cueUnitAnswersItself : Obligations.CueUnitAnswersItself := by
  unfold Obligations.CueUnitAnswersItself
  intro s rest released opened u
  refine ⟨fun index front => leaves_of_conclude (exec_failedEntryTake_of_front released opened front),
    fun index code tag params front => ⟨fun unknown => ?unknown, fun mark => ?mark, fun c kind outside is => ?range⟩⟩
  case unknown => exact leaves_of_conclude (exec_unknownKind_of_front released opened front unknown)
  case mark => exact leaves_of_conclude (exec_commandOf_of_front released opened front mark)
  case range =>
    have command : c = commandOf kind ∧ OutOfRange params kind := by
      rcases outside with ⟨⟨rfl, rfl⟩ | ⟨rfl, rfl⟩, out⟩ | ⟨⟨rfl, rfl⟩ | ⟨rfl, rfl⟩ | ⟨rfl, rfl⟩, out⟩ | ⟨rfl, rfl, out⟩ |
        ⟨rfl, rfl, out⟩ | ⟨rfl, rfl, out⟩ | ⟨rfl, rfl, out⟩ | ⟨rfl, rfl, out⟩
      case inr.inl.inr.inr => exact ⟨rfl, .inl out⟩
      case inr.inr.inl => exact ⟨rfl, .inr out⟩
      all_goals exact ⟨rfl, out⟩
    obtain ⟨rfl, out⟩ := command
    have refused := exec_commandOf_of_front released opened front is
    rw [unitOf_of_outOfRange _ out] at refused
    exact leaves_of_conclude refused

end Sys2Proof.Machine
end

section
/-! PROOFS: the zones (file 04). The law of the owner slots over a step (R59), what claims, reservations and releases make
of each zone (R59 to R61, R110), and the cues CLOSE ZONE, OPEN ZONE and SET LANGUAGE (R64, R65, R73). -/

namespace Sys2Proof.Machine

/-! ## The law of the owner slots (R59) -/

/-- A ms counts on a slot's clock or its wait; its state stands (R97, R104). -/
theorem Slot.state_ticked (x : Slot) : x.ticked.state = x.state := by
  unfold Slot.ticked
  split
  · cases x.wait <;> rfl
  · rfl

theorem state_slot_tick (s : State) (k : Fin 8) : (s.tick.slot k).state = (s.slot k).state := by
  unfold State.tick
  split
  · rfl
  · exact (congrArg Slot.state (tabulate_get _ k)).trans (Slot.state_ticked _)

theorem zone_tick (s : State) (z : Fin 8) : s.tick.zone z = s.zone z := by
  unfold State.tick; split <;> rfl

theorem OwnerLaw.tick {s : State} (h : OwnerLaw s) : OwnerLaw s.tick := by
  intro z k owned
  rw [zone_tick] at owned
  rw [state_slot_tick]
  exact h z k owned

/-- Settles O14: `OwnerLaw` holds throughout an event, at its end and at reset. -/
theorem stepKeepsOwnerLaw : Obligations.StepKeepsOwnerLaw := by
  intro s t h e
  exact step_keeps OwnerLaw OwnerLaw (pre := fun _ => id) (change := Change.owner) (settle := OwnerLaw.settle)
    (lines := fun _ _ => id) (pending := fun _ _ => id) (reset := fun _ => ownerLaw_reset)
    (tick := fun _ => OwnerLaw.tick) h e

namespace State

/-! ## Claims, reservations and releases, zone by zone (R59 to R61) -/

theorem mem_zones_iff (r : SceneRecord) (z : Fin 8) : z ∈ r.zones ↔ hasMember r.zoneSet z.val = true := by
  simp [SceneRecord.zones, zonesOf, mem_fins]

section Zones

variable (s : State) (k : Fin 8) (n : Fin 32) (z : Fin 8)

theorem zone_claim : (s.claim k n).zone z =
    if z ∈ (s.sceneRecord n).zones then
      { s.zone z with owner := some k
                      reservation := if (s.zone z).reservation = some n then none else (s.zone z).reservation }
    else s.zone z := by
  simp only [claim, zone_mapZones, mem_zones_iff]

theorem zone_reserve : (s.reserve n).zone z =
    if z ∈ (s.sceneRecord n).zones then { s.zone z with reservation := some n } else s.zone z := by
  simp only [reserve, zone_mapZones, mem_zones_iff]

theorem zone_unreserve : (s.unreserve n).zone z =
    if (s.zone z).reservation = some n then { s.zone z with reservation := none } else s.zone z := by
  rw [unreserve, zone_mapZones, if_pos (hasMember_all z)]

theorem zone_releaseZones : (s.releaseZones k).zone z =
    if (s.zone z).owner = some k then { s.zone z with owner := none } else s.zone z := by
  rw [releaseZones, zone_mapZones, if_pos (hasMember_all z)]

/-- A change of zones touches nothing but zones. -/
theorem mapZones_frame (set : Nat) (f : Zone → Zone) : { s.mapZones set f with zones := s.zones } = s := rfl

variable {s k}

/-- A slot that has wound down is freed: its zones are released before the scan is asked for (R110). -/
theorem testWound_of_woundDown (stopping : (s.slot k).state = .stopping) (wound : s.woundDown k = true) :
    (perform (.testWound k) s).1.zones = (s.releaseZones k).zones ∧
      (perform (.testWound k) s).2 = [.quietTest, .askScan, .reRequest] := by
  have due : ((s.slot k).state = .stopping && s.woundDown k) = true := by simp [stopping, wound]
  show (s.testWound k).1.zones = _ ∧ (s.testWound k).2 = _
  simp only [testWound, if_pos due, and_true]
  split <;> rfl

end Zones

/-- Settles O45, operation by operation. -/
theorem zonesAreClaimed : Obligations.ZonesAreClaimed := by
  unfold Obligations.ZonesAreClaimed
  intro s k n z x mine
  refine ⟨fun inside => ?claimed, fun inside => ?reserved, fun outside => ⟨?_, ?_⟩, zone_unreserve s n z,
    zone_releaseZones s k z, fun t operation => ?frame, testWound_of_woundDown⟩
  case claimed => rw [zone_claim, if_pos inside]
  case reserved => rw [zone_reserve, if_pos inside]
  · rw [zone_claim, if_neg outside]
  · rw [zone_reserve, if_neg outside]
  case frame =>
    simp only [List.mem_cons, List.not_mem_nil, or_false] at operation
    rcases operation with rfl | rfl | rfl | rfl <;> exact mapZones_frame _ _ _

/-! ## The removal of requests, queue and zones (R89) -/

theorem queue_drop (s : State) (r : Request) (reason : DropReason) :
    (s.drop r reason).req.queue = s.req.queue.filter fun q => q.scene != r.scene := rfl

theorem zone_drop (s : State) (r : Request) (reason : DropReason) (z : Fin 8) : (s.drop r reason).zone z =
    if (s.zone z).reservation = some r.scene then { s.zone z with reservation := none } else s.zone z :=
  zone_unreserve _ _ _

theorem queue_foldl_drop (l : List Request) (s : State) (reason : DropReason) :
    (l.foldl (fun t r => t.drop r reason) s).req.queue = s.req.queue.filter fun q => l.all fun r => q.scene != r.scene := by
  induction l generalizing s with
  | nil => simp
  | cons r l ih =>
    rw [List.foldl_cons, ih, queue_drop, List.filter_filter]
    simp only [List.all_cons, Bool.and_comm]

theorem zone_foldl_drop (l : List Request) (s : State) (reason : DropReason) (z : Fin 8) :
    (l.foldl (fun t r => t.drop r reason) s).zone z =
      if ∃ r ∈ l, (s.zone z).reservation = some r.scene then { s.zone z with reservation := none } else s.zone z := by
  induction l generalizing s with
  | nil => simp
  | cons r l ih =>
    rw [List.foldl_cons, ih, zone_drop]
    by_cases held : (s.zone z).reservation = some r.scene
    · simp [held]
    · simp [held]

/-- The requests that stay are those the condition spares, when it judges the requests of one scene alike. -/
theorem queue_dropWhere_eq {s : State} {p : Request → Bool} (reason : DropReason)
    (alike : ∀ q ∈ s.req.queue, ∀ r ∈ s.req.queue, q.scene = r.scene → p q = p r) :
    (s.dropWhere p reason).req.queue = s.req.queue.filter fun r => !p r := by
  rw [dropWhere, queue_foldl_drop]
  refine List.filter_congr fun q inside => Bool.eq_iff_iff.2 ?_
  simp only [List.all_filter, List.all_eq_true, Bool.or_eq_true, Bool.not_eq_true', bne_iff_ne]
  constructor
  · intro spared
    exact (spared q inside).resolve_right fun h => h rfl
  · intro kept r present
    by_cases same : q.scene = r.scene
    · exact .inl (alike q inside r present same ▸ kept)
    · exact .inr same

/-- The reservations held for the scenes of the removed requests are cleared (R60, R89). -/
theorem zone_dropWhere (s : State) (p : Request → Bool) (reason : DropReason) (z : Fin 8) :
    (s.dropWhere p reason).zone z =
      if ∃ r ∈ s.req.queue.filter p, (s.zone z).reservation = some r.scene then { s.zone z with reservation := none }
      else s.zone z :=
  zone_foldl_drop _ s reason z

/-! ## The cues of the zones (R64, R65, R73) -/

/-- The take of the cue at the head is the work of its kind's unit (R44). -/
theorem exec_of_headIs {s : State} {kind : CueKind} {c : TakenCue} {rest : List CueEntry} (head : s.headIs kind c rest) :
    exec (commandOf kind) s = .next (conclude (unitOf kind (s.consumed rest) c)) :=
  (exec_commandOf kind s).trans (takeCue_of_headIs head _)

section Cues

variable {s : State} {c : TakenCue} {z : Fin 8}

theorem zoneParam_eq_some (named : paramByte c.params 4 = z.val) : zoneParam c.params = some z :=
  numbered_eq_some.2 named

theorem languageParam_eq_some {l : Fin 4} (spoken : paramByte c.params 5 = l.val) : languageParam c.params = some l :=
  numbered_eq_some.2 spoken

theorem cueSetLanguage_accepted {l : Fin 4} (named : paramByte c.params 4 = z.val)
    (spoken : paramByte c.params 5 = l.val) (enabled : (s.zoneRecord z).isEnabled = true)
    (present : l.val < s.languageCount) :
    s.cueSetLanguage c = ((s.answer c .accepted).setZone z { s.zone z with language := l.val }, []) := by
  simp [cueSetLanguage, zoneParam_eq_some named, languageParam_eq_some spoken, enabled, present]

theorem cueSetLanguage_refused {l : Fin 4} (named : paramByte c.params 4 = z.val)
    (spoken : paramByte c.params 5 = l.val)
    (outside : (s.zoneRecord z).isEnabled = false ∨ s.languageCount ≤ l.val) :
    s.cueSetLanguage c = s.refuse c .range := by
  have refused : ¬ ((s.zoneRecord z).isEnabled && l.val < s.languageCount) = true := by
    rcases outside with disabled | absent
    · simp [disabled]
    · simp [Nat.not_lt.2 absent]
  simp only [cueSetLanguage, zoneParam_eq_some named, languageParam_eq_some spoken, if_neg refused]

theorem cueCloseZone_accepted (named : paramByte c.params 4 = z.val) (enabled : (s.zoneRecord z).isEnabled = true) :
    s.cueCloseZone c =
      (((s.answer c .accepted).setZone z { s.zone z with closed := true }).dropWhere
        (fun r => (s.sceneRecord r.scene).hasZone z.val) .zoneClosed, closeOwner (s.zone z)) := by
  simp only [cueCloseZone, zoneParam_eq_some named, enabled, if_true]

theorem cueCloseZone_refused (named : paramByte c.params 4 = z.val) (disabled : (s.zoneRecord z).isEnabled = false) :
    s.cueCloseZone c = s.refuse c .range := by
  simp [cueCloseZone, zoneParam_eq_some named, disabled]

theorem cueOpenZone_accepted (named : paramByte c.params 4 = z.val) (enabled : (s.zoneRecord z).isEnabled = true) :
    s.cueOpenZone c = ((s.answer c .accepted).setZone z { s.zone z with closed := false }, [.askScan]) := by
  simp only [cueOpenZone, zoneParam_eq_some named, enabled, if_true]

theorem cueOpenZone_refused (named : paramByte c.params 4 = z.val) (disabled : (s.zoneRecord z).isEnabled = false) :
    s.cueOpenZone c = s.refuse c .range := by
  simp [cueOpenZone, zoneParam_eq_some named, disabled]

end Cues

/-- Outside RUN a scan asked for is no scan (R80). -/
theorem perform_askScan_idle {s : State} (idle : s.ctl.state ≠ .run) : perform .askScan s = (s, []) := if_pos idle

/-- Settles O34, cue by cue. -/
theorem zoneCuesAct : Obligations.ZoneCuesAct := by
  unfold Obligations.ZoneCuesAct
  intro s c rest z named accepted refused
  refine ⟨fun head l spoken four => ?spoken, fun head => ?closed, fun head => ?opened⟩
  case spoken =>
    have taken : exec .setLanguage s = _ := exec_of_headIs head
    have spoken' : paramByte c.params 5 = (⟨l, four⟩ : Fin 4).val := spoken
    refine ⟨fun outside => ?_, fun enabled present => ?_⟩
    · rw [unitOf, cueSetLanguage_refused (s := s.consumed rest) named spoken' outside] at taken
      exact leaves_of_conclude taken
    · rw [unitOf, cueSetLanguage_accepted (s := s.consumed rest) named spoken' enabled present] at taken
      exact leaves_of_conclude taken
  case closed =>
    have taken : exec .closeZone s = _ := exec_of_headIs head
    refine ⟨fun disabled => ?_, fun enabled => ?_⟩
    · rw [unitOf, cueCloseZone_refused (s := s.consumed rest) named disabled] at taken
      exact leaves_of_conclude taken
    · intro inZone u
      rw [unitOf, cueCloseZone_accepted (s := s.consumed rest) named enabled] at taken
      refine ⟨queue_dropWhere_eq _ fun q _ r _ same => by simp only [inZone, same], ?cleared, fun unowned => ?unowned,
        fun k owned => ?owned⟩
      case cleared =>
        rintro y ⟨r, waiting, inside, held⟩
        have same : ((accepted.setZone z { s.zone z with closed := true }).zone y).reservation =
            (s.zone y).reservation := by
          rw [zone_setZone]
          split
          · next e => rw [← e]
          · rfl
        rw [zone_dropWhere, if_pos ⟨r, List.mem_filter.2 ⟨waiting, inside⟩, same.trans held⟩]
      case unowned =>
        have nobody : closeOwner ((s.consumed rest).zone z) = [] := by
          rw [closeOwner, show ((s.consumed rest).zone z).owner = none from unowned]
        rw [nobody] at taken
        exact leaves_of_conclude taken
      case owned =>
        have stopped : closeOwner ((s.consumed rest).zone z) = [.stopSlot k .zoneClosed] := by
          rw [closeOwner, show ((s.consumed rest).zone z).owner = some k from owned]
        rw [stopped] at taken
        exact taken
  case opened =>
    have taken : exec .openZone s = _ := exec_of_headIs head
    refine ⟨fun disabled => ?_, fun enabled => ?_⟩
    · rw [unitOf, cueOpenZone_refused (s := s.consumed rest) named disabled] at taken
      exact leaves_of_conclude taken
    · intro u
      rw [unitOf, cueOpenZone_accepted (s := s.consumed rest) named enabled] at taken
      refine ⟨taken, fun idle => ⟨u.settle, ?_, closes_settle u⟩⟩
      rw [← follow_of_last (perform_askScan_idle (s := u) idle)]
      exact taken

end State

end Sys2Proof.Machine
end

section
/-! PROOFS: guards and visitor inputs (file 04). A guard line reaches the zone it is wired to (`guardZone_of_wired`) and
moves its guard (R66, R68); a visitor line is followed and its level taken after the debounce time (R69 to R72, R104). -/

namespace Sys2Proof.Machine.State

/-- An effect that asks for nothing is left at the event's end. -/
theorem leaves_of_asks {c : Instr} {s u : State} (h : Asks c s u []) : Leaves c s u := leaves_of_conclude h

/-! ## Guards (R66, R68) -/

/-- A guard line is wired to an enabled zone whose record names it. -/
def Wired (s : State) (line z : Fin 8) : Prop :=
  (s.zoneRecord z).isEnabled = true ∧ (s.zoneRecord z).guardInput = line.val

section Guards

variable {s : State} {line z : Fin 8}

theorem guardZone_of_unwired (unwired : ∀ z, ¬ s.Wired line z) : s.guardZone line = none := by
  rw [guardZone, find?_fins_eq_none]
  simpa [Wired] using unwired

theorem guardZone_of_wired (wired : s.Wired line z) (only : ∀ y, s.Wired line y → y = z) :
    s.guardZone line = some z := by
  rw [guardZone, find?_fins_eq_some]
  refine ⟨by simpa [Wired] using wired, fun y lower named => ?_⟩
  have same : y = z := only y (by simpa [Wired] using named)
  exact absurd same lower.ne

theorem guardRises_of_unwired (unwired : ∀ z, ¬ s.Wired line z) : s.guardRises line = (s, []) := by
  rw [guardRises, guardZone_of_unwired unwired]

theorem guardFalls_of_unwired (unwired : ∀ z, ¬ s.Wired line z) : s.guardFalls line = (s, []) := by
  rw [guardFalls, guardZone_of_unwired unwired]

theorem guardRises_of_wired (wired : s.Wired line z) (only : ∀ y, s.Wired line y → y = z) :
    s.guardRises line = s.tripGuard z := by
  rw [guardRises, guardZone_of_wired wired only]

theorem guardFalls_of_wired (wired : s.Wired line z) (only : ∀ y, s.Wired line y → y = z) :
    s.guardFalls line = (s.settleGuard z, []) := by
  rw [guardFalls, guardZone_of_wired wired only]

theorem tripGuard_of_clear (clear : (s.zone z).guard = .clear) : s.tripGuard z =
    (s.setZone z { s.zone z with guard := .tripped }, (s.zoneAxes z).map fun n => .addReason n .guard) := by
  simp only [tripGuard, clear]

theorem tripGuard_of_settling (settling : (s.zone z).guard = .settling) :
    s.tripGuard z = (s.setZone z { s.zone z with guard := .tripped, settle := none }, []) := by
  simp only [tripGuard, settling]

theorem tripGuard_of_tripped (tripped : (s.zone z).guard = .tripped) : s.tripGuard z = (s, []) := by
  simp only [tripGuard, tripped]

theorem settleGuard_of_tripped (tripped : (s.zone z).guard = .tripped) : s.settleGuard z =
    s.setZone z { s.zone z with guard := .settling
                                settle := some (later s.showTime (s.zoneRecord z).settleTime) } := by
  simp only [settleGuard, tripped]

theorem settleGuard_of_not_tripped (calm : (s.zone z).guard ≠ .tripped) : s.settleGuard z = s := by
  unfold settleGuard
  dsimp only
  split
  · next tripped => exact absurd tripped calm
  · rfl
  · rfl

/-! ### The commands of the guard lines -/

theorem exec_guardInputActive (released : s.resetLow = false) (was : s.lines.guard.get line = .inactive) :
    exec (.guardInputActive line) s = .next (conclude ((s.setGuardLine line .active).guardRises line)) := by
  show execGuardInputActive line s = _
  simp [execGuardInputActive, onLine, released, was]

theorem exec_guardInputInactive (released : s.resetLow = false) (was : s.lines.guard.get line = .active) :
    exec (.guardInputInactive line) s = .next (conclude ((s.setGuardLine line .inactive).guardFalls line)) := by
  show execGuardInputInactive line s = _
  simp [execGuardInputInactive, onLine, released, was]

theorem exec_guardInputActive_wired (released : s.resetLow = false) (was : s.lines.guard.get line = .inactive)
    (wired : s.Wired line z) (only : ∀ y, s.Wired line y → y = z) :
    exec (.guardInputActive line) s = .next (conclude ((s.setGuardLine line .active).tripGuard z)) := by
  rw [exec_guardInputActive released was, guardRises_of_wired (s := s.setGuardLine line .active) wired only]

theorem exec_guardInputInactive_wired (released : s.resetLow = false) (was : s.lines.guard.get line = .active)
    (wired : s.Wired line z) (only : ∀ y, s.Wired line y → y = z) :
    exec (.guardInputInactive line) s = .next (conclude ((s.setGuardLine line .inactive).settleGuard z, [])) := by
  rw [exec_guardInputInactive released was, guardFalls_of_wired (s := s.setGuardLine line .inactive) wired only]

theorem exec_settleDeadline {d : Time} (released : s.resetLow = false) (settling : (s.zone z).guard = .settling)
    (waits : (s.zone z).settle = some d) (elapsed : reached d s.showTime = true) :
    exec (.settleDeadline z) s = .next (conclude (s.clearGuard z)) := by
  show execSettleDeadline z s = _
  simp [execSettleDeadline, react, isDue, due, released, settling, waits, elapsed]

end Guards

/-- Settles O42, line by line and guard state by guard state. -/
theorem guardsTripAndSettle : Obligations.GuardsTripAndSettle := by
  unfold Obligations.GuardsTripAndSettle
  intro s line released wired at'
  refine ⟨fun was => ⟨fun unwired => ?rises, fun z here only => ?trips⟩,
    fun was => ⟨fun unwired => ?falls, fun z here only => ?settles⟩, fun z d settling waits elapsed => ?clears⟩
  case rises =>
    have moves := exec_guardInputActive released was
    rw [guardRises_of_unwired (s := s.setGuardLine line .active) unwired] at moves
    exact leaves_of_conclude moves
  case trips =>
    have moves := exec_guardInputActive_wired released was here only
    have asked (clear : (s.zone z).guard = .clear) : Asks (.guardInputActive line) s
        ((at' .active).setZone z { s.zone z with guard := .tripped })
        ((s.zoneAxes z).map fun n => .addReason n .guard) := by
      rw [tripGuard_of_clear (s := s.setGuardLine line .active) clear] at moves
      exact moves
    refine ⟨asked, fun clear alone => ?_, fun settling => ?_, fun tripped => ?_⟩
    · have moved := asked clear
      rw [alone] at moved
      exact leaves_of_asks moved
    · rw [tripGuard_of_settling (s := s.setGuardLine line .active) settling] at moves
      exact leaves_of_conclude moves
    · rw [tripGuard_of_tripped (s := s.setGuardLine line .active) tripped] at moves
      exact leaves_of_conclude moves
  case falls =>
    have moves := exec_guardInputInactive released was
    rw [guardFalls_of_unwired (s := s.setGuardLine line .inactive) unwired] at moves
    exact leaves_of_conclude moves
  case settles =>
    have moves := exec_guardInputInactive_wired released was here only
    refine ⟨fun tripped => ?_, fun calm => ?_⟩
    · rw [settleGuard_of_tripped (s := s.setGuardLine line .inactive) tripped] at moves
      exact leaves_of_conclude moves
    · rw [settleGuard_of_not_tripped (s := s.setGuardLine line .inactive) calm] at moves
      exact leaves_of_conclude moves
  case clears =>
    intro u
    have asked : Asks (.settleDeadline z) s u ((s.zoneAxes z).map fun n => .removeReason n .guard) :=
      exec_settleDeadline released settling waits elapsed
    refine ⟨asked, fun alone => ?_⟩
    rw [alone] at asked
    exact leaves_of_asks asked

/-! ## Visitor inputs (R69 to R72, R104) -/

section Inputs

variable {s : State} {i : Fin 24}

theorem exec_visitorLineChange {l : Level} (released : s.resetLow = false) (moves : s.lines.visitor.get i ≠ l) :
    exec (.visitorLineChange i l) s = .next (conclude
      (if s.dir.taken.isSome then (s.setVisitorLine i l).followLine i l else s.setVisitorLine i l, [])) := by
  show execVisitorLineChange i l s = _
  simp [execVisitorLineChange, onLine, released, moves]

theorem exec_debounceDeadline {d : Time} (released : s.resetLow = false) (waits : (s.input i).deadline = some d)
    (elapsed : reached d s.showTime = true) : exec (.debounceDeadline i) s = .next (conclude (s.edge i)) := by
  show execDebounceDeadline i s = _
  simp [execDebounceDeadline, react, isDue, due, released, waits, elapsed]

theorem debounceTime_of_taken {d : Directory} (taken : s.dir.taken = some d) : s.debounceTime = d.debounce := by
  simp [debounceTime, taken]

/-- A level taken that is no press, and a press of nothing, tell the slots that wait alone. -/
theorem edge_of_idle (idle : (s.input i).raw = .active → (s.takeLevel i).press i = (s.takeLevel i, [])) :
    s.edge i = (s.takeLevel i, wakeTasks s (Condition.isInput i)) := by
  have taken : ((s.takeLevel i).input i).debounced = (s.input i).raw := by simp [takeLevel]
  unfold edge
  dsimp only
  rw [taken]
  split
  · next active => rw [idle active]; rfl
  · rfl

/-- A press comes before the slots that wait (log 30). -/
theorem edge_of_press (pressed : (s.input i).raw = .active) : s.edge i =
    (((s.takeLevel i).press i).1, ((s.takeLevel i).press i).2 ++ wakeTasks s (Condition.isInput i)) := by
  have taken : ((s.takeLevel i).input i).debounced = .active := by simp [takeLevel, pressed]
  unfold edge
  dsimp only
  rw [if_pos taken]

theorem press_of_scene {n : Fin 32} (kind : (s.inputRecord i).kind = 1 ∨ (s.inputRecord i).kind = 2)
    (names : (s.inputRecord i).scene = n.val) : s.press i = s.request n (.trigger i) := by
  have presses : (s.inputRecord i).pressesScene = true := by simpa [InputRecord.pressesScene] using kind
  rw [press, if_pos presses, pressScene, numbered_eq_some.2 names]

theorem press_of_no_scene (kind : (s.inputRecord i).kind = 1 ∨ (s.inputRecord i).kind = 2)
    (nameless : 32 ≤ (s.inputRecord i).scene) : s.press i = (s, []) := by
  have presses : (s.inputRecord i).pressesScene = true := by simpa [InputRecord.pressesScene] using kind
  rw [press, if_pos presses, pressScene, numbered_of_le nameless]

theorem press_of_language {z : Fin 8} (kind : (s.inputRecord i).kind = 3) (names : (s.inputRecord i).zone = z.val) :
    s.press i = (s.setZone z { s.zone z with
      language := if (s.zone z).language + 1 < s.languageCount then (s.zone z).language + 1 else 0 }, []) := by
  simp only [press, stepLanguage, numbered_eq_some.2 names]
  simp [InputRecord.pressesScene, InputRecord.isLanguage, kind]

theorem press_of_unused (kind : (s.inputRecord i).kind ≠ 1 ∧ (s.inputRecord i).kind ≠ 2 ∧ (s.inputRecord i).kind ≠ 3) :
    s.press i = (s, []) := by
  obtain ⟨notButton, notMat, notLanguage⟩ := kind
  simp [press, InputRecord.pressesScene, InputRecord.isLanguage, notButton, notMat, notLanguage]

/-- The slots told of an input are those whose wait names it, in rising number (log 36). -/
theorem wakeTasks_isInput : wakeTasks s (Condition.isInput i) = ((fins 8).filter fun k => match (s.slot k).wait with
    | some ⟨.input j _, _, _⟩ => j == i
    | _ => false).map Task.wakeSlot := by
  refine congrArg (List.map Task.wakeSlot) (List.filter_congr fun k _ => ?_)
  cases (s.slot k).wait with
  | none => rfl
  | some w =>
    obtain ⟨condition, _, _⟩ := w
    cases condition <;> rfl

end Inputs

/-- Settles O43: the line's change, then the deadline by what the press edge asks. -/
theorem visitorLevelsAreTaken : Obligations.VisitorLevelsAreTaken := by
  unfold Obligations.VisitorLevelsAreTaken
  intro s i released x r
  refine ⟨fun l moves => ⟨fun untaken => ?unwatched, fun d taken => ?followed⟩, fun d waits elapsed => ?deadline⟩
  case unwatched =>
    have follows := exec_visitorLineChange released moves
    rw [untaken] at follows
    exact leaves_of_conclude follows
  case followed =>
    have follows := exec_visitorLineChange released moves
    have time : (s.setVisitorLine i l).debounceTime = d.debounce := debounceTime_of_taken taken
    rw [taken, followLine, time] at follows
    exact leaves_of_conclude follows
  case deadline =>
    intro t waiting wakes presses
    have ends := exec_debounceDeadline released waits elapsed
    have told : wakeTasks s (Condition.isInput i) = wakes := wakeTasks_isInput
    refine ⟨fun idle => ?idle, fun n pressed kind names => ?scene, fun z pressed kind names => ?language⟩
    case idle =>
      have nothing (pressed : x.raw = .active) : (s.takeLevel i).press i = (s.takeLevel i, []) := by
        rcases idle with unpressed | unused | ⟨kind, nameless⟩
        · exact absurd pressed unpressed
        · exact press_of_unused unused
        · exact press_of_no_scene kind nameless
      rw [edge_of_idle nothing, told] at ends
      refine ⟨ends, fun unheard => ?_⟩
      rw [show wakes = [] from congrArg (List.map Task.wakeSlot) unheard] at ends
      exact leaves_of_conclude ends
    case scene =>
      rw [edge_of_press pressed, told, press_of_scene (s := s.takeLevel i) kind names] at ends
      exact ends
    case language =>
      intro l u
      rw [edge_of_press pressed, told, press_of_language (s := s.takeLevel i) kind names] at ends
      refine ⟨ends, fun unheard => ?_⟩
      rw [show wakes = [] from congrArg (List.map Task.wakeSlot) unheard] at ends
      exact leaves_of_conclude ends

end Sys2Proof.Machine.State
end

section
/-! PROOFS: the step on an empty queue (log 2), and the law of the Request Queue over a step (R74). -/

namespace Sys2Proof.Machine

open State

/-! ## The law of the Request Queue (R74) -/

theorem Request.scene_ticked (r : Request) : r.ticked.scene = r.scene := by
  unfold Request.ticked; split <;> rfl

/-- A ms counts on the waits of the requests; the scenes they are for stand (R86). -/
theorem scenes_tick (s : State) : s.tick.req.queue.map Request.scene = s.req.queue.map Request.scene := by
  unfold State.tick
  split
  · rfl
  · show s.tickedQueue.map Request.scene = _
    unfold State.tickedQueue
    split
    · rw [List.map_map]
      exact List.map_congr_left fun r _ => r.scene_ticked
    · rfl

theorem RequestLaw.tick {s : State} (h : RequestLaw s) : RequestLaw s.tick := by
  obtain ⟨-, -, -, -, -, dir⟩ := tick_frame s
  exact h.of_fewer (by rw [dir]) (by rw [scenes_tick]) fun z closed => by rwa [zone_tick] at closed

/-- Settles O8: `RequestLaw` holds throughout an event, at its end and at reset. -/
theorem stepKeepsRequestLaw : Obligations.StepKeepsRequestLaw := by
  intro s t h e
  exact step_keeps RequestLaw RequestLaw (pre := fun _ => id) (change := Change.request) (settle := RequestLaw.settle)
    (lines := fun _ _ => id) (pending := fun _ _ => id) (reset := fun _ => requestLaw_reset)
    (tick := fun _ => RequestLaw.tick) h e

/-! ## The step on an empty queue -/

theorem step_of_due {s : State} {c : Instr} (idle : s.pending = []) (due : s.dueCommand = some c) :
    step s = exec c s := by
  simp only [step, idle, due]

theorem step_of_none_due {s : State} (idle : s.pending = []) (rests : s.dueCommand = none) : step s = .next s.tick := by
  simp only [step, idle, rests]

/-- The event found is due, and the part is out of reset. -/
theorem isDue_of_dueCommand {s : State} {c : Instr} (due : s.dueCommand = some c) :
    s.isDue c = true ∧ s.resetLow = false := by
  unfold dueCommand at due
  split at due
  · cases due
  · next released => exact ⟨List.find?_some due, by simpa using released⟩

/-! ### What a ms changes in each unit -/

section Tick

variable {s : State}

theorem tick_low (low : s.resetLow = true) : s.tick = { s with showTime := s.showTime + 1 } := if_pos low

theorem tick_released (released : s.resetLow = false) : s.tick =
    { s with
      showTime := s.showTime + 1
      sampleCount := 0
      slots := tabulate fun k => (s.slots.get k).ticked
      req := { s.req with queue := s.tickedQueue }
      axes := tabulate fun n => (s.axes.get n).ticked } := if_neg (by simp [released])

theorem slot_tick (released : s.resetLow = false) (k : Fin 8) : s.tick.slot k = (s.slot k).ticked := by
  rw [tick_released released]
  exact tabulate_get _ k

theorem axis_tick (released : s.resetLow = false) (n : Fin 12) : s.tick.axis n = (s.axis n).ticked := by
  rw [tick_released released]
  exact tabulate_get _ n

theorem req_tick (released : s.resetLow = false) : s.tick.req = { s.req with queue := s.tickedQueue } := by
  rw [tick_released released]

/-- The clock of a RUNNING slot, or the timeout of its wait, goes on; no other slot changes (R97, R104). -/
theorem Slot.ticked_eq (x : Slot) : x.ticked = match x.state, x.wait with
    | .running, none => { x with clock := min 3600000 (x.clock + 1) }
    | .running, some w => { x with wait := some { w with remaining := w.remaining.map (· - 1) } }
    | _, _ => x := by
  unfold Slot.ticked
  cases x.state
  case running => cases x.wait <;> rfl
  all_goals rfl

/-- The elapsed time of each motion under way goes on (R147, R149). -/
theorem Axis.ticked_eq (a : Axis) : a.ticked = match a.state with
    | .moving => { a with elapsed := a.elapsed + 1, profileMs := a.profileMs + 1 }
    | .homing => { a with elapsed := a.elapsed + 1 }
    | .suspending | .halting => { a with profileMs := a.profileMs + 1 }
    | _ => a := by
  unfold Axis.ticked
  cases a.state <;> rfl

end Tick

/-- Settles O2. -/
theorem stepOnEmptyQueue : Obligations.StepOnEmptyQueue := by
  unfold Obligations.StepOnEmptyQueue
  intro s idle
  refine ⟨fun c due => ⟨step_of_due idle due, isDue_of_dueCommand due⟩, fun rests low => ?low,
    fun rests released => ?passes⟩
  case low => rw [step_of_none_due idle rests, tick_low low]
  case passes =>
    refine ⟨s.tick, step_of_none_due idle rests, ?time, ?samples, fun k => ?slot, fun state => ?stands,
      fun state => ?waits, fun n => ?axis, ?frame⟩
    case slot => rw [slot_tick released]; exact Slot.ticked_eq _
    case axis => rw [axis_tick released]; exact Axis.ticked_eq _
    case stands => rw [req_tick released, tickedQueue, if_neg state]
    case waits => rw [req_tick released, tickedQueue, if_pos state]; rfl
    all_goals rw [tick_released released]

end Sys2Proof.Machine
end

section
/-! PROOFS: scene requests (file 05), admission, removals and cues. Whether a scene has a queued request or a slot, said
once (`queuedRequest_isSome_iff`, `mem_slotsWith`); admission's table (R76 to R78) through `admission_show` and
`admitToQueue_new`; what a removal makes of the part (R89). -/

namespace Sys2Proof.Machine.State

/-! ## A scene's queued request and its slots -/

section Lookup

variable {s : State} {n : Fin 32}

theorem queuedRequest_isSome_iff : (s.queuedRequest n).isSome = true ↔ ∃ q ∈ s.req.queue, q.scene = n := by
  simp [queuedRequest]

theorem queuedRequest_eq_none_iff : s.queuedRequest n = none ↔ ∀ q ∈ s.req.queue, q.scene ≠ n := by
  simp [queuedRequest]

/-- The one request of a scene is the one found for it. -/
theorem queuedRequest_of_split {r : Request} {before after : List Request} (queue : s.req.queue = before ++ r :: after)
    (others : ∀ p ∈ before ++ after, p.scene ≠ r.scene) : s.queuedRequest r.scene = some r := by
  rw [queuedRequest, queue, List.find?_eq_some_iff_append]
  exact ⟨by simp, before, after, rfl, fun p inside => by simpa using others p (List.mem_append_left _ inside)⟩

/-- A slot that holds the scene, in a state of the kind asked. -/
theorem mem_slotsWith {p : SlotState → Bool} {k : Fin 8} : k ∈ s.slotsWith n p ↔
    p (s.slot k).state = true ∧ ∃ h, (s.slot k).holding = some h ∧ h.scene = n := by
  simp only [slotsWith, List.mem_filter, mem_fins, true_and, Bool.and_eq_true]
  cases (s.slot k).holding <;> simp

theorem slotsWith_eq_nil_iff {p : SlotState → Bool} : s.slotsWith n p = [] ↔
    ∀ k, ¬ (p (s.slot k).state = true ∧ ∃ h, (s.slot k).holding = some h ∧ h.scene = n) := by
  simp only [List.eq_nil_iff_forall_not_mem, mem_slotsWith]

/-- A scene runs in a LOADING, RUNNING or HELD slot (R78). -/
theorem hasInstance_iff : s.hasInstance n = true ↔ ∃ k h, (s.slot k).holding = some h ∧ h.scene = n ∧
    ((s.slot k).state = .loading ∨ (s.slot k).state = .running ∨ (s.slot k).state = .held) := by
  rw [hasInstance, Bool.not_eq_true', ← Bool.not_eq_true, List.isEmpty_iff, slotsWith_eq_nil_iff]
  simp only [not_forall, not_not, isRunning_iff]
  constructor
  · rintro ⟨k, runs, h, holds, is⟩
    exact ⟨k, h, holds, is, runs⟩
  · rintro ⟨k, h, holds, is, runs⟩
    exact ⟨k, runs, h, holds, is⟩

end Lookup

/-! ## Admission (R76 to R79) -/

section Admission

variable {s : State} {n : Fin 32} {o : Origin}

theorem admission_disabled (disabled : (s.sceneRecord n).isEnabled = false) :
    s.admission n o = .turnedAway .range (some .disabled) := by
  simp [admission, disabled]

theorem admission_closed (enabled : (s.sceneRecord n).isEnabled = true)
    (closed : ∃ z ∈ (s.sceneRecord n).zones, (s.zone z).closed = true) :
    s.admission n o = .turnedAway .zoneClosed (some .zoneClosed) := by
  have any : ((s.sceneRecord n).zones.any fun z => (s.zone z).closed) = true := List.any_eq_true.2 closed
  simp only [admission, enabled, any, Bool.not_true, Bool.false_eq_true, if_false, if_true]

/-- The scene is enabled and none of its zones is closed (R76). -/
def Open (s : State) (n : Fin 32) : Prop :=
  (s.sceneRecord n).isEnabled = true ∧ ¬ ∃ z ∈ (s.sceneRecord n).zones, (s.zone z).closed = true

theorem Open.none_closed (opened : s.Open n) : ((s.sceneRecord n).zones.any fun z => (s.zone z).closed) = false := by
  rw [← Bool.not_eq_true, List.any_eq_true]
  exact opened.2

theorem admission_reloading (opened : s.Open n) (state : s.ctl.state = .draining ∨ s.ctl.state = .start) :
    s.admission n o = .turnedAway .reloading (some .reloading) := by
  rcases state with state | state <;> simp [admission, opened.1, opened.none_closed, state]

theorem admission_safe (opened : s.Open n) (state : s.ctl.state = .safe) :
    s.admission n o = .turnedAway .wrongState (some .wrongState) := by
  simp [admission, opened.1, opened.none_closed, state]

/-- In RUN and HOLD the queue decides (R77). -/
theorem admission_show (opened : s.Open n) (state : s.ctl.state = .run ∨ s.ctl.state = .hold) :
    s.admission n o = s.admitToQueue n o := by
  rcases state with state | state <;> simp [admission, opened.1, opened.none_closed, state]

/-- A TRIGGER request during the scene's cooldown (R79). -/
def Cooling (s : State) (n : Fin 32) (o : Origin) : Prop := (∃ i, o = .trigger i) ∧ (s.req.cooldown.get n).isSome = true

theorem cooling_iff : (o.isTrigger && (s.req.cooldown.get n).isSome) = true ↔ s.Cooling n o := by
  rw [Bool.and_eq_true, Cooling]
  cases o <;> simp [Origin.isTrigger]

theorem admitToQueue_cooling (cooling : s.Cooling n o) : s.admitToQueue n o = .turnedAway .busy none :=
  if_pos (cooling_iff.2 cooling)

theorem admitToQueue_merged (warm : ¬ s.Cooling n o) (queued : ∃ q ∈ s.req.queue, q.scene = n) :
    s.admitToQueue n o = .merged :=
  (if_neg (mt cooling_iff.1 warm)).trans (if_pos (queuedRequest_isSome_iff.2 queued))

/-- A scene with no queued request: BUSY while an IGNORE scene runs, then the queue's room (R77, R78). -/
theorem admitToQueue_new (warm : ¬ s.Cooling n o) (fresh : ¬ ∃ q ∈ s.req.queue, q.scene = n) : s.admitToQueue n o =
    if s.hasInstance n && (s.sceneRecord n).policy == 0 then .turnedAway .busy none
    else if 16 ≤ s.req.queue.length then .turnedAway .queueFull (some .queueFull)
    else .queued (s.hasInstance n && (s.sceneRecord n).policy == 1) :=
  (if_neg (mt cooling_iff.1 warm)).trans (if_neg (mt queuedRequest_isSome_iff.1 fresh))

/-! ### What a TRIGGER or AUTO request does (R75 to R78) -/

theorem request_dropped {a : Reason} {reason : DropReason} (away : s.admission n o = .turnedAway a (some reason)) :
    s.request n o = (s.produce (.requestDropped n o reason), []) := by
  simp only [request, away]

theorem request_silent {a : Reason} (away : s.admission n o = .turnedAway a none) : s.request n o = (s, []) := by
  simp only [request, away]

theorem request_merged (merged : s.admission n o = .merged) : s.request n o = (s, []) := by
  simp only [request, merged]

theorem request_queued {restart : Bool} (queued : s.admission n o = .queued restart) :
    s.request n o = (s.enqueue n o restart, [.askScan]) := by
  simp only [request, queued]

end Admission

/-! ## Removals (R86 to R90) -/

section Removal

variable {s : State} {r : Request} {before after : List Request}

/-- A removal by scene drops the one request of the scene. -/
theorem dropWhere_scene (queue : s.req.queue = before ++ r :: after) (others : ∀ p ∈ before ++ after, p.scene ≠ r.scene)
    (reason : DropReason) : s.dropWhere (fun q => q.scene == r.scene) reason = s.drop r reason := by
  have first : before.filter (fun q => q.scene == r.scene) = [] := List.filter_eq_nil_iff.2 fun q inside => by
    simpa using others q (List.mem_append_left _ inside)
  have last : after.filter (fun q => q.scene == r.scene) = [] := List.filter_eq_nil_iff.2 fun q inside => by
    simpa using others q (List.mem_append_right _ inside)
  have one : s.req.queue.filter (fun q => q.scene == r.scene) = [r] := by simp [queue, first, last]
  rw [dropWhere, one]
  rfl

/-- The one request of its scene leaves the queue (R89). -/
theorem drop_of_split (queue : s.req.queue = before ++ r :: after)
    (others : ∀ p ∈ before ++ after, p.scene ≠ r.scene) (reason : DropReason) : s.drop r reason =
      ((({ s with req := { s.req with queue := before ++ after } } : State).unreserve r.scene).produce
        (.requestDropped r.scene r.origin reason)) := by
  rw [drop, filter_other_scenes s r queue others]
  rfl

end Removal

/-! ## The deadlines of the requests (R79, R86) -/

section Deadlines

variable {s : State} {n : Fin 32}

theorem exec_cooldownDeadline {d : Time} (released : s.resetLow = false) (waits : s.req.cooldown.get n = some d)
    (elapsed : reached d s.showTime = true) : exec (.cooldownDeadline n) s =
      .next (conclude ({ s with req := { s.req with cooldown := put s.req.cooldown n none } }, [])) := by
  show execCooldownDeadline n s = _
  simp [execCooldownDeadline, react, isDue, due, released, waits, elapsed]

theorem exec_requestExpires {q : Request} (released : s.resetLow = false) (queued : s.queuedRequest n = some q)
    (waiting : q.state = .waiting) (lasting : q.single = false) (spent : q.remaining = 0) :
    exec (.requestExpires n) s = .next (conclude (s.dropWhere (fun r => r.scene == n) .expired, [])) := by
  show execRequestExpires n s = _
  simp [execRequestExpires, react, isDue, expires, released, queued, waiting, lasting, spent]

end Deadlines

/-- Settles O44: admission's table row by row, then the two deadlines. -/
theorem requestsAreAdmittedAndExpire : Obligations.RequestsAreAdmittedAndExpire := by
  unfold Obligations.RequestsAreAdmittedAndExpire
  intro s n o r closed runs cooling queued opens taken
  have fresh (t : taken) (unqueued : ¬ queued) : s.admission n o = _ :=
    (admission_show t.1 t.2.1).trans (admitToQueue_new t.2.2 unqueued)
  have ignored : (s.hasInstance n && r.policy == 0) = true ↔ runs ∧ r.policy = 0 := by
    rw [Bool.and_eq_true, hasInstance_iff, beq_iff_eq]
  refine ⟨admission_disabled, admission_closed, admission_reloading, admission_safe,
    fun opened state cools => (admission_show opened state).trans (admitToQueue_cooling cools),
    fun t present => (admission_show t.1 t.2.1).trans (admitToQueue_merged t.2.2 present),
    fun t unqueued running ignores => ?busy, fun t unqueued free full => ?full, fun t unqueued free room => ?queued,
    fun a reason => request_dropped, fun a => request_silent, request_merged,
    fun restart => request_queued, fun released => ⟨?cooldown, ?expiry⟩⟩
  case busy => rw [fresh t unqueued, if_pos (ignored.2 ⟨running, ignores⟩)]
  case full => rw [fresh t unqueued, if_neg (mt ignored.1 free), if_pos full]
  case queued =>
    refine ⟨_, by rw [fresh t unqueued, if_neg (mt ignored.1 free), if_neg (Nat.not_le.2 room)], ?_⟩
    rw [Bool.and_eq_true, hasInstance_iff, beq_iff_eq]
  case cooldown => exact fun d waits elapsed => leaves_of_conclude (exec_cooldownDeadline released waits elapsed)
  case expiry =>
    rintro q before after queue rfl others waiting lasting spent
    have expires := exec_requestExpires released (queuedRequest_of_split queue others) waiting lasting spent
    rw [dropWhere_scene queue others, drop_of_split queue others] at expires
    exact leaves_of_conclude expires

/-! ## The cues of the scenes (R75 to R78, R88, R111) -/

/-- A scan asked for outside RUN leaves the effect at the event's end (R80). -/
theorem leaves_of_asks_scan {c : Instr} {s u : State} (asked : Asks c s u [.askScan]) (idle : u.ctl.state ≠ .run) :
    Leaves c s u :=
  ⟨u.settle, asked.trans (by rw [follow_of_last (perform_askScan_idle idle)]), closes_settle u⟩

section Cues

variable {s : State} {c : TakenCue} {n : Fin 32}

theorem sceneParam_eq_some (named : paramByte c.params 4 = n.val) : sceneParam c.params = some n :=
  numbered_eq_some.2 named

theorem cueRequestScene_refused {reason : Reason} {drop : Option DropReason} (named : paramByte c.params 4 = n.val)
    (away : s.admission n (.cue c.tag) = .turnedAway reason drop) : s.cueRequestScene c = s.refuse c reason := by
  simp only [cueRequestScene, sceneParam_eq_some named, away]

theorem cueRequestScene_merged (named : paramByte c.params 4 = n.val) (merged : s.admission n (.cue c.tag) = .merged) :
    s.cueRequestScene c = (s.answer c .merged, []) := by
  simp only [cueRequestScene, sceneParam_eq_some named, merged]

theorem cueRequestScene_queued {restart : Bool} (named : paramByte c.params 4 = n.val)
    (queued : s.admission n (.cue c.tag) = .queued restart) :
    s.cueRequestScene c = ((s.answer c .queued).enqueue n (.cue c.tag) restart, [.askScan]) := by
  simp only [cueRequestScene, sceneParam_eq_some named, queued]

theorem cueStopScene_refused (named : paramByte c.params 4 = n.val) (disabled : (s.sceneRecord n).isEnabled = false) :
    s.cueStopScene c = s.refuse c .range := by
  simp [cueStopScene, sceneParam_eq_some named, disabled]

theorem cueStopScene_accepted (named : paramByte c.params 4 = n.val) (enabled : (s.sceneRecord n).isEnabled = true) :
    s.cueStopScene c = ((s.answer c .accepted).dropWhere (fun r => r.scene == n) .stopped,
      (s.slotsWith n fun x => x != .free).map fun k => .stopSlot k .stopped) := by
  simp only [cueStopScene, sceneParam_eq_some named, enabled, if_true]

/-- The slots that hold a scene, in one condition. -/
theorem slotsWith_eq_filter (p : SlotState → Bool) : s.slotsWith n p =
    (fins 8).filter fun k => p (s.slot k).state && ((s.slot k).holding.map Holding.scene == some n) :=
  List.filter_congr fun k _ => by cases (s.slot k).holding <;> simp

end Cues

/-- Settles O40, cue by cue. -/
theorem sceneCuesAct : Obligations.SceneCuesAct := by
  unfold Obligations.SceneCuesAct
  intro s c rest accepted
  refine ⟨fun head n named => ?requested, fun head n named => ?stopped, fun head => ?all⟩
  case requested =>
    have taken : exec .requestScene s = _ := exec_of_headIs head
    rw [unitOf] at taken
    refine ⟨fun reason drop away => ?_, fun merged => ?_, fun restart queued => ?_⟩
    · rw [cueRequestScene_refused (s := s.consumed rest) named away] at taken
      exact leaves_of_conclude taken
    · rw [cueRequestScene_merged (s := s.consumed rest) named merged] at taken
      exact leaves_of_conclude taken
    · intro limit v
      rw [cueRequestScene_queued (s := s.consumed rest) named queued] at taken
      have asked : Asks .requestScene s v [.askScan] := taken
      exact ⟨asked, fun hold => leaves_of_asks_scan asked fun run => by cases hold.symm.trans run⟩
  case stopped =>
    have taken : exec .stopScene s = _ := exec_of_headIs head
    rw [unitOf] at taken
    refine ⟨fun disabled => ?_, fun enabled => ?_⟩
    · rw [cueStopScene_refused (s := s.consumed rest) named disabled] at taken
      exact leaves_of_conclude taken
    · intro holders u
      rw [cueStopScene_accepted (s := s.consumed rest) named enabled, slotsWith_eq_filter] at taken
      have asked : Asks .stopScene s u (holders.map fun k => .stopSlot k .stopped) := taken
      refine ⟨asked, queue_dropWhere_eq _ fun q _ r _ same => by rw [same], fun unheld => ?_⟩
      rw [unheld] at asked
      exact leaves_of_asks asked
  case all =>
    have asked : Asks .stopAll s accepted
        (((fins 8).filter fun k => (s.slot k).state != .free).map fun k => .stopSlot k .stopped) := exec_of_headIs head
    refine ⟨asked, rfl, fun free => ?_⟩
    have unheld : ((fins 8).filter fun k => (s.slot k).state != .free) = [] :=
      List.filter_eq_nil_iff.2 fun k _ => by simp [free k]
    rw [unheld] at asked
    exact leaves_of_asks asked

end Sys2Proof.Machine.State
end

section
/-! PROOFS: the scan of the Request Queue (file 05). What a removal and the tasks of a scan do
(`RequestsAreRemoved`, `ScanIsMade`), the conditions a request is judged by as predicates, what each outcome makes of
the part, and from them the judgement of a WAITING and of a PREEMPTING request (R81 to R85). -/

namespace Sys2Proof.Machine

/-! ## What a zone, a slot and two scenes are asked (R82, R83) -/

theorem Zone.isFree_iff (z : Zone) : z.isFree = true ↔
    z.closed = false ∧ z.owner = none ∧ z.reservation = none ∧ z.cueHoming = [] := by
  simp [Zone.isFree, and_assoc]

theorem Zone.mayReserve_iff (z : Zone) : z.mayReserve = true ↔
    z.closed = false ∧ z.reservation = none ∧ z.cueHoming = [] := by
  simp [Zone.mayReserve, and_assoc]

theorem SlotState.mayRestart_iff (x : SlotState) : x.mayRestart = true ↔ x = .loading ∨ x = .running := by
  cases x <;> simp [SlotState.mayRestart]

theorem SceneRecord.sharesZone_iff (r t : SceneRecord) : r.sharesZone t = true ↔ ∃ z, z ∈ r.zones ∧ z ∈ t.zones := by
  simp only [sharesZone, List.any_eq_true, State.mem_zones_iff]

namespace State

/-! ## What removals make of the part (R89, R90) -/

section Removals

variable (s : State) (l : List Request) (reason : DropReason)

theorem req_foldl_drop : (l.foldl (fun t r => t.drop r reason) s).req =
    { s.req with queue := (l.foldl (fun t r => t.drop r reason) s).req.queue } := by
  induction l generalizing s with
  | nil => rfl
  | cons r l ih => exact ih (s.drop r reason)

theorem report_foldl_drop : (l.foldl (fun t r => t.drop r reason) s).report =
    l.foldl (fun t r => t.joined ⟨.requestDropped r.scene r.origin reason, s.showTime⟩) s.report := by
  induction l generalizing s with
  | nil => rfl
  | cons r l ih => exact ih (s.drop r reason)

/-- A removal touches nothing but requests, zones and records. -/
theorem frame_foldl_drop : { l.foldl (fun t r => t.drop r reason) s with
    req := s.req, zones := s.zones, report := s.report } = s := by
  induction l generalizing s with
  | nil => rfl
  | cons r l ih =>
    have rest := ih (s.drop r reason)
    exact congrArg (fun t : State => { t with req := s.req, zones := s.zones, report := s.report }) rest

end Removals

/-- Each scene having one request at most, a condition removes just the requests that satisfy it (R89, R90). -/
theorem requestsAreRemoved (s : State) : RequestsAreRemoved s := by
  intro once p reason u gone
  have alike : ∀ q ∈ s.req.queue, ∀ r ∈ s.req.queue, q.scene = r.scene → p q = p r :=
    fun q inside r present same => congrArg p (List.inj_on_of_nodup_map once inside present same)
  refine ⟨?_, zone_dropWhere s p reason, report_foldl_drop s gone reason, frame_foldl_drop s gone reason, rfl⟩
  rw [← queue_dropWhere_eq reason alike]
  exact req_foldl_drop s gone reason

/-! ## The course of a scan (R80, R87, R91) -/

section Course

variable {s : State} {n : Fin 32}

theorem perform_askScan_again (run : s.ctl.state = .run) (underWay : s.req.underWay = true) :
    perform .askScan s = ({ s with req := { s.req with scanPending := true } }, []) :=
  (if_neg (not_not.2 run)).trans (if_pos underWay)

theorem perform_askScan_begin (run : s.ctl.state = .run) (ended : s.req.underWay = false) :
    perform .askScan s = ({ s with req := { s.req with underWay := true } },
      ((s.req.queue.filter fun r => r.state == .preempting).map fun r => .judgePreempting r.scene) ++
        [.waitingPhase]) :=
  (if_neg (not_not.2 run)).trans (if_neg (by simp [ended]))

/-- The end of a scan takes up what was asked before its removals (R80, R87, R91). -/
theorem perform_endScan (s : State) : perform .endScan s =
    ({ s.dropWhere (fun r => r.single && r.state == .waiting) .expired with
        req := { (s.dropWhere (fun r => r.single && r.state == .waiting) .expired).req with
          underWay := false, scanPending := false, owed := 0 } },
      (if s.req.scanPending then [.askScan] else []) ++ List.replicate s.req.owed .reRequest) := by
  obtain ⟨pending, owed⟩ := dropWhere_flags s (fun r => r.single && r.state == .waiting) .expired
  rw [← pending, ← owed]
  rfl

theorem perform_reRequest_owed (underWay : s.req.underWay = true) :
    perform .reRequest s = ({ s with req := { s.req with owed := s.req.owed + 1 } }, []) := if_pos underWay

theorem perform_reRequest_now (ended : s.req.underWay = false) : perform .reRequest s =
    (s, if s.ctl.state = .run ∨ s.ctl.state = .hold then (fins 32).map .autoRequest else []) := by
  refine (if_neg (by simp [ended])).trans ?_
  split <;> rfl

/-- An ambient scene calls for a request when it is enabled, of auto-start, in no slot and not queued (R91). -/
def Called (s : State) (n : Fin 32) : Prop := (s.sceneRecord n).isEnabled = true ∧ (s.sceneRecord n).autoStart = true ∧
  (∀ k h, (s.slot k).state ≠ .free → (s.slot k).holding = some h → h.scene ≠ n) ∧ ∀ q ∈ s.req.queue, q.scene ≠ n

theorem called_iff : ((s.sceneRecord n).isEnabled && (s.sceneRecord n).autoStart &&
    (s.slotsWith n fun x => x != .free).isEmpty && (s.queuedRequest n).isNone) = true ↔ s.Called n := by
  simp only [Called, Bool.and_eq_true, List.isEmpty_iff, slotsWith_eq_nil_iff, Option.isNone_iff_eq_none,
    queuedRequest_eq_none_iff, bne_iff_ne, not_and, not_exists, and_assoc]
  refine and_congr_right fun _ => and_congr_right fun _ => and_congr_left fun _ => ?_
  exact ⟨fun h k x busy holds => h k busy x holds, fun h k busy x holds => h k x busy holds⟩

theorem perform_autoRequest_called (called : s.Called n) : perform (.autoRequest n) s = s.request n .auto :=
  if_pos (called_iff.2 called)

theorem perform_autoRequest_uncalled (uncalled : ¬ s.Called n) : perform (.autoRequest n) s = (s, []) :=
  if_neg (mt called_iff.1 uncalled)

end Course

theorem scanIsMade (s : State) : ScanIsMade s :=
  ⟨perform_askScan_idle, perform_askScan_again, perform_askScan_begin, rfl, perform_endScan s, rfl,
    perform_reRequest_owed, perform_reRequest_now, fun _ => ⟨perform_autoRequest_called, perform_autoRequest_uncalled⟩⟩

/-! ## What a request is judged by, as predicates (R82, R83) -/

section Conditions

variable (s : State) (n : Fin 32) (k : Fin 8)

/-- A LOADING or RUNNING slot of the scene, which a restart may take (R82). -/
def Restartable : Prop := ((s.slot k).state = .loading ∨ (s.slot k).state = .running) ∧
  ∃ h, (s.slot k).holding = some h ∧ h.scene = n

/-- The lowest FREE slot (R93). -/
def LowestFree : Prop := (s.slot k).state = .free ∧ ∀ j < k, (s.slot j).state ≠ .free

/-- A slot that still runs a scene of a class below one (R83). -/
def Weaker (cls : SceneClass) : Prop :=
  ((s.slot k).state = .loading ∨ (s.slot k).state = .running ∨ (s.slot k).state = .held) ∧
    ∃ h, (s.slot k).holding = some h ∧ h.cls.rank < cls.rank

/-- An older request has a zone in common (R83). -/
def BlockedBy (before : List Request) (n : Fin 32) : Prop :=
  ∃ q ∈ before, ∃ z, z ∈ (s.sceneRecord q.scene).zones ∧ z ∈ (s.sceneRecord n).zones

/-- A FREE slot, and every zone of the scene free (R83). -/
def MayStart : Prop := (∃ k, (s.slot k).state = .free) ∧ ∀ z ∈ (s.sceneRecord n).zones,
  (s.zone z).closed = false ∧ (s.zone z).owner = none ∧ (s.zone z).reservation = none ∧ (s.zone z).cueHoming = []

/-- Every zone of the scene open to a reservation and unowned or to be taken from its owner, and one owned (R83). -/
def MayPreempt : Prop :=
  (∀ z ∈ (s.sceneRecord n).zones, (s.zone z).closed = false ∧ (s.zone z).reservation = none ∧
      (s.zone z).cueHoming = [] ∧ ∀ k, (s.zone z).owner = some k → s.Weaker k (s.sceneRecord n).sceneClass) ∧
    ∃ z ∈ (s.sceneRecord n).zones, (s.zone z).owner ≠ none

variable {s n k}

theorem mem_slotsWith_mayRestart : k ∈ s.slotsWith n SlotState.mayRestart ↔ s.Restartable n k := by
  rw [mem_slotsWith, SlotState.mayRestart_iff, Restartable]

/-- The slot a restart takes is the lowest of the scene's (R82). -/
theorem slotsWith_of_lowest (restarts : s.Restartable n k) (lowest : ∀ j < k, ¬ s.Restartable n j) :
    ∃ rest, s.slotsWith n SlotState.mayRestart = k :: rest := by
  have inside (j : Fin 8) : j ∈ s.slotsWith n SlotState.mayRestart ↔ s.Restartable n j := mem_slotsWith_mayRestart
  have first : (s.slotsWith n SlotState.mayRestart).head? = some k := by
    rw [slotsWith_eq_filter, List.head?_filter, find?_fins_eq_some]
    simp only [slotsWith_eq_filter, List.mem_filter, mem_fins, true_and] at inside
    exact ⟨(inside k).2 restarts, fun j lower => mt (inside j).1 (lowest j lower)⟩
  exact ⟨_, List.eq_cons_of_mem_head? first⟩

theorem slotsWith_of_none (absent : ¬ ∃ k, s.Restartable n k) : s.slotsWith n SlotState.mayRestart = [] :=
  List.eq_nil_iff_forall_not_mem.2 fun k inside => absent ⟨k, mem_slotsWith_mayRestart.1 inside⟩

theorem freeSlot_eq_some_iff : s.freeSlot = some k ↔ s.LowestFree k := by
  rw [freeSlot, find?_fins_eq_some]
  simp [LowestFree]

theorem freeSlot_eq_none_iff : s.freeSlot = none ↔ ¬ ∃ k, (s.slot k).state = .free := by
  rw [freeSlot, find?_fins_eq_none]
  simp

theorem mayTakeFrom_iff (cls : SceneClass) (z : Fin 8) :
    s.mayTakeFrom cls z = true ↔ ∀ k, (s.zone z).owner = some k → s.Weaker k cls := by
  unfold mayTakeFrom
  cases (s.zone z).owner with
  | none => simp
  | some k =>
    have runs := isRunning_iff (s.slot k).state
    cases holding : (s.slot k).holding <;> simp [Weaker, runs, holding]

theorem mayPreempt_iff : s.mayPreempt n = true ↔ s.MayPreempt n := by
  simp only [mayPreempt, MayPreempt, Bool.and_eq_true, List.all_eq_true, List.any_eq_true, Zone.mayReserve_iff,
    mayTakeFrom_iff, Option.isSome_iff_ne_none, and_assoc]

theorem isBlocked_iff {r : Request} {before after : List Request} (queue : s.req.queue = before ++ r :: after)
    (others : ∀ p ∈ before ++ after, p.scene ≠ r.scene) : s.isBlocked r = true ↔ s.BlockedBy before r.scene := by
  have older : (s.req.queue.takeWhile fun q => q.scene != r.scene) = before := by
    rw [queue, List.takeWhile_append_of_pos fun q inside => by simpa using others q (List.mem_append_left _ inside)]
    simp
  simp only [isBlocked, older, List.any_eq_true, SceneRecord.sharesZone_iff, BlockedBy]

end Conditions

/-! ## What becomes of a request (R82, R84, R85) -/

/-- The cooldown deadline a start or a restart of the scene sets now (R79). -/
def cooldownFrom (s : State) (n : Fin 32) : Option Time :=
  if (s.sceneRecord n).cooldown = 0 then none
  else some (s.showTime + BitVec.ofNat 32 (1000 * (s.sceneRecord n).cooldown))

section Outcomes

variable {s : State} {r : Request} {before after : List Request} (queue : s.req.queue = before ++ r :: after)
  (others : ∀ p ∈ before ++ after, p.scene ≠ r.scene)

include queue others

theorem start_of_split (k : Fin 8) : s.start r k =
    { (s.claim k r.scene) with
      slots := put s.slots k { Slot.reset with
        state := .loading, holding := some ⟨r.scene, (s.sceneRecord r.scene).sceneClass, s.showTime⟩ }
      pins := put s.pins (slotPlace k) (some ⟨⟨(s.sceneRecord r.scene).script,
        (s.sceneRecord r.scene).script + 16 * (s.sceneRecord r.scene).steps⟩, none⟩)
      req := { s.req with queue := before ++ after, cooldown := put s.req.cooldown r.scene (s.cooldownFrom r.scene) }
      report := s.report.joined ⟨.sceneStarted r.scene k r.origin false, s.showTime⟩ } := by
  rw [← filter_other_scenes s r queue others]
  rfl

theorem restartInto_of_split (k : Fin 8) : s.restartInto r k =
    (({ s with req := { s.req with
        queue := before ++ after, cooldown := put s.req.cooldown r.scene (s.cooldownFrom r.scene) } } : State).produce
      (.sceneStarted r.scene k r.origin true), [.restart k]) := by
  rw [← filter_other_scenes s r queue others]
  rfl

/-- The request changes its state where it stands, and no other does (R85). -/
theorem map_preempting : (s.req.queue.map fun q => if q.scene = r.scene then { q with state := .preempting } else q) =
    before ++ { r with state := .preempting } :: after := by
  have kept (l : List Request) (apart : ∀ q ∈ l, q.scene ≠ r.scene) :
      (l.map fun q => if q.scene = r.scene then { q with state := .preempting } else q) = l :=
    (List.map_congr_left fun q inside => if_neg (apart q inside)).trans (List.map_id _)
  rw [queue, List.map_append, List.map_cons, kept before fun q inside => others q (List.mem_append_left _ inside),
    kept after fun q inside => others q (List.mem_append_right _ inside), if_pos rfl]

theorem preempt_of_split : s.preempt r =
    ({ (s.reserve r.scene) with
        req := { s.req with queue := before ++ { r with state := .preempting } :: after } },
      ((fins 8).filter fun k => (s.sceneRecord r.scene).zones.any fun z => (s.zone z).owner == some k).map
        fun k => .stopSlot k .preempted) := by
  rw [← map_preempting queue others]
  rfl

/-! ## The judgement of a WAITING request (R82, R83) -/

theorem judgeWaiting_restarts {k : Fin 8} (waiting : r.state = .waiting) (restart : r.restart = true)
    (restarts : s.Restartable r.scene k) (lowest : ∀ j < k, ¬ s.Restartable r.scene j) :
    s.judgeWaiting r.scene = s.restartInto r k := by
  obtain ⟨rest, slots⟩ := slotsWith_of_lowest restarts lowest
  simp [judgeWaiting, queuedRequest_of_split queue others, waiting, restart, slots]

section Anew

variable (waiting : r.state = .waiting) (anew : ¬ (r.restart = true ∧ ∃ k, s.Restartable r.scene k))

include waiting anew

/-- A request that restarts nothing is blocked, starts, pre-empts or stays (R83). -/
theorem judgeWaiting_anew : s.judgeWaiting r.scene =
    if s.isBlocked r then (s, [])
    else
      match s.freeSlot, (s.sceneRecord r.scene).zones.all fun z => (s.zone z).isFree with
      | some k, true => (s.start r k, [])
      | _, _ => if s.mayPreempt r.scene then s.preempt r else (s, []) := by
  simp only [judgeWaiting, queuedRequest_of_split queue others, waiting, ne_eq, not_true_eq_false, if_false]
  cases restart : r.restart
  · rfl
  · have empty := slotsWith_of_none fun held => anew ⟨restart, held⟩
    generalize s.slotsWith r.scene SlotState.mayRestart = slots at empty
    subst empty
    rfl

theorem judgeWaiting_blocked (blocked : s.BlockedBy before r.scene) : s.judgeWaiting r.scene = (s, []) := by
  rw [judgeWaiting_anew queue others waiting anew, if_pos ((isBlocked_iff queue others).2 blocked)]

theorem judgeWaiting_starts {k : Fin 8} (clear : ¬ s.BlockedBy before r.scene) (starts : s.MayStart r.scene)
    (lowest : s.LowestFree k) : s.judgeWaiting r.scene = (s.start r k, []) := by
  have free : ((s.sceneRecord r.scene).zones.all fun z => (s.zone z).isFree) = true :=
    List.all_eq_true.2 fun z inside => (Zone.isFree_iff _).2 (starts.2 z inside)
  rw [judgeWaiting_anew queue others waiting anew, if_neg (mt (isBlocked_iff queue others).1 clear),
    freeSlot_eq_some_iff.2 lowest, free]

/-- A request that may not start pre-empts where it may, and stays otherwise (R83, 2 and 3). -/
theorem judgeWaiting_not_starts (clear : ¬ s.BlockedBy before r.scene) (stuck : ¬ s.MayStart r.scene) :
    s.judgeWaiting r.scene = if s.mayPreempt r.scene then s.preempt r else (s, []) := by
  rw [judgeWaiting_anew queue others waiting anew, if_neg (mt (isBlocked_iff queue others).1 clear)]
  split
  · next k found free =>
    refine absurd ⟨⟨k, (freeSlot_eq_some_iff.1 found).1⟩, fun z inside => ?_⟩ stuck
    exact (Zone.isFree_iff _).1 (List.all_eq_true.1 free z inside)
  · rfl

end Anew

/-! ## The judgement of a PREEMPTING request (R81) -/

theorem judgePreempting_starts {k : Fin 8} (preempting : r.state = .preempting)
    (unowned : ∀ z ∈ (s.sceneRecord r.scene).zones, (s.zone z).owner = none) (lowest : s.LowestFree k) :
    s.judgePreempting r.scene = (s.start r k, []) := by
  rw [judgePreempting, queuedRequest_of_split queue others, freeSlot_eq_some_iff.2 lowest]
  exact if_pos (by simpa [preempting] using unowned)

theorem judgePreempting_stays (stuck : ¬ (∀ z ∈ (s.sceneRecord r.scene).zones, (s.zone z).owner = none) ∨
    ∀ k, (s.slot k).state ≠ .free) : s.judgePreempting r.scene = (s, []) := by
  rw [judgePreempting, queuedRequest_of_split queue others]
  rcases stuck with owned | busy
  · cases s.freeSlot with
    | none => rfl
    | some k => simp [owned]
  · rw [freeSlot_eq_none_iff.2 (by simpa using busy)]

end Outcomes

/-- Settles O46: a WAITING request's ways, a PREEMPTING request's, the course of a scan and the removals. -/
theorem scanJudgesWaiting : Obligations.ScanJudgesWaiting := by
  unfold Obligations.ScanJudgesWaiting
  refine ⟨fun s r before after queue others waiting => ?waiting,
    fun s r before after queue others preempting => ?preempting, scanIsMade, requestsAreRemoved⟩
  case waiting =>
    intro e rec' restarts again blocked free lowest starts weaker preempts deadline removed
    refine ⟨fun k restart restarted first => ?_, fun anew => judgeWaiting_blocked queue others waiting anew,
      fun anew clear start k low => ?_, fun anew clear stuck preempting => ?_, fun anew clear stuck calm => ?_⟩
    · exact (judgeWaiting_restarts queue others waiting restart restarted first).trans
        (restartInto_of_split queue others k)
    · refine (judgeWaiting_starts queue others waiting anew clear start low).trans ?_
      rw [start_of_split queue others k]
      rfl
    · refine (judgeWaiting_not_starts queue others waiting anew clear stuck).trans ?_
      rw [if_pos (mayPreempt_iff.2 preempting)]
      exact preempt_of_split queue others
    · exact (judgeWaiting_not_starts queue others waiting anew clear stuck).trans (if_neg (mt mayPreempt_iff.1 calm))
  case preempting =>
    intro e rec' unowned deadline
    refine ⟨judgePreempting_stays queue others, fun k vacant free lower => ?_⟩
    refine (judgePreempting_starts queue others preempting vacant ⟨free, lower⟩).trans ?_
    rw [start_of_split queue others k]
    rfl

end State

end Sys2Proof.Machine
end

section
/-! PROOFS: the stops of scene slots (file 06). What a stop, a restart, the wound-down test and a wake do to the part, each
said once by the slot's state (R104, R108 to R112), and what channels given back tell (R119, R127). -/

namespace Sys2Proof.Machine

/-- A slot in use as a stop leaves it: clock, next index and fetch index stand (log 32). -/
def Slot.stopped (x : Slot) (reason : EndReason) : Slot :=
  { x with state := .stopping, endReason := some reason, wait := none, loop := none, buffer := [], savedClock := none }

/-- A slot's fields at a restart; scene and class stand (R112). -/
def Slot.restarted (x : Slot) (now : Time) : Slot :=
  { x with state := .loading, holding := x.holding.map fun h => { h with startTime := now }, clock := 0, next := 0,
           fetch := 0, buffer := [], lines := 0, wait := none, loop := none, savedClock := none }

/-! ## What a discarded fetch leaves (R96) -/

theorem Purpose.isScript_eq (k : Fin 8) (p : Purpose) : p.isScript k = (p == .script k) := by
  cases p <;> simp [Purpose.isScript]

namespace State

section Stops

variable {s : State} {k : Fin 8} {reason : EndReason}

/-- The slot's request leaves the Arbiter, and its read in flight is live no more. -/
def FetchDropped (s : State) (k : Fin 8) (u : State) : Prop :=
  u.arb = { s.arb with script := put s.arb.script k none } ∧
    u.port = s.port.map fun f => { f with live := f.live && f.purpose != .script k }

theorem fetchDropped_dropFetch (s : State) (k : Fin 8) : s.FetchDropped k (s.dropFetch k) := by
  refine ⟨rfl, congrArg (s.port.map ·) (funext fun f => ?_)⟩
  rw [Purpose.isScript_eq]
  by_cases mine : f.purpose = .script k
  · simp [mine]
  · rw [if_neg (by simpa using mine), bne_iff_ne.2 mine, Bool.and_true]

/-! ## Stops (R108, R122) -/

theorem stopSlot_of_free (free : (s.slot k).state = .free) : perform (.stopSlot k reason) s = (s, []) := by
  simp only [perform, stopSlot, free]

theorem stopSlot_of_stopping (stopping : (s.slot k).state = .stopping) : perform (.stopSlot k reason) s =
    (s, if (s.slot k).endReason = some .completed ∧ reason ≠ .completed then s.quell k else []) := by
  simp only [perform, stopSlot, stopping]
  split <;> rfl

theorem stopSlot_of_live
    (live : (s.slot k).state = .loading ∨ (s.slot k).state = .running ∨ (s.slot k).state = .held) :
    perform (.stopSlot k reason) s =
      (((s.dropFetch k).setSlot k ((s.slot k).stopped reason)).releaseChannels k (s.slotScene k).releaseFade,
        (if reason = .completed then [] else s.quell k) ++ [.testWound k]) := by
  rcases live with loading | running | held
  · simp only [perform, stopSlot, loading, Slot.stopped]
  · simp only [perform, stopSlot, running, Slot.stopped]
  · simp only [perform, stopSlot, held, Slot.stopped]

theorem channel_releaseChannels (s : State) (k : Fin 8) (duration : Nat) (c : Fin 128) :
    (s.releaseChannels k duration).channel c =
      if (s.channel c).owner = some k then
        { s.channel c with
          releasing := true
          fade := some ⟨(s.channel c).level, (s.channel c).base, duration, 0, some s.showTime⟩ }
      else s.channel c :=
  channel_mapChannels ..

/-! ## The wound-down test (R109, R110) -/

/-- A slot has wound down when no channel, no voice and no axis is its own (R109). -/
theorem woundDown_iff : s.woundDown k = true ↔ (∀ c, (s.channel c).owner ≠ some k) ∧
    (∀ v, (s.voice v).owner ≠ some k) ∧ ∀ n, (s.axis n).owner ≠ .slot k := by
  simp [woundDown, ownsChannel, ownedVoices, ownedAxes, mem_fins, and_assoc]

theorem testWound_frees {h : Holding} (stopping : (s.slot k).state = .stopping) (wound : s.woundDown k = true)
    (holds : (s.slot k).holding = some h) (ends : (s.slot k).endReason = some reason) :
    perform (.testWound k) s =
      ((((s.releaseZones k).setPin (slotPlace k) none).setSlot k
        { s.slot k with state := .free, holding := none, endReason := none }).produce (.sceneEnded h.scene k reason),
        [.quietTest, .askScan, .reRequest]) := by
  simp only [perform, testWound, stopping, wound, holds, ends, decide_true, Bool.and_self, if_true]

theorem testWound_of_busy (busy : (s.slot k).state ≠ .stopping ∨ s.woundDown k = false) :
    perform (.testWound k) s = (s, []) :=
  if_neg (by
    rcases busy with live | owning
    · simp [live]
    · simp [owning])

/-! ## Restarts (R112, R123) -/

theorem restart_of_live (live : (s.slot k).state = .loading ∨ (s.slot k).state = .running) :
    perform (.restart k) s =
      (((s.dropFetch k).setSlot k ((s.slot k).restarted s.showTime)).holdChannels k, s.quell k) :=
  if_pos ((SlotState.mayRestart_iff _).2 live)

theorem restart_of_other (loading : (s.slot k).state ≠ .loading) (running : (s.slot k).state ≠ .running) :
    perform (.restart k) s = (s, []) :=
  if_neg fun may => ((SlotState.mayRestart_iff _).1 may).elim loading running

theorem channel_holdChannels (s : State) (k : Fin 8) (c : Fin 128) : (s.holdChannels k).channel c =
    if (s.channel c).owner = some k then { s.channel c with fade := none } else s.channel c :=
  channel_mapChannels ..

/-! ## Wakes (R104) -/

theorem wakeSlot_of_no_wait (free : (s.slot k).wait = none) : perform (.wakeSlot k) s = (s, []) := by
  simp only [perform, wakeSlot, free]

theorem wakeSlot_of_wait {w : Wait} (waits : (s.slot k).wait = some w) : perform (.wakeSlot k) s =
    if s.conditionHolds w.condition then
      (s.setSlot k { s.slot k with wait := none }, if (s.slot k).state = .running then [.takeSteps k none] else [])
    else (s, []) := by
  simp only [perform, wakeSlot, waits, runTasksOf]

/-! ## Channels given back (R119, R127) -/

theorem giveUpChannel_of_ended {c : Fin 128} (releasing : (s.channel c).releasing = true)
    (ended : (s.channel c).fade = none) : perform (.giveUpChannel c) s =
      (s.setChannel c { s.channel c with owner := none, releasing := false }, woundTask (s.channel c).owner) :=
  if_pos (by simp [releasing, ended])

theorem giveUpChannel_of_not_ended {c : Fin 128}
    (stays : (s.channel c).releasing = false ∨ (s.channel c).fade.isSome = true) :
    perform (.giveUpChannel c) s = (s, []) :=
  if_neg (by
    rcases stays with kept | fading
    · simp [kept]
    · simp [Option.isSome_iff_ne_none.1 fading])

end Stops

/-- Settles O52: stops, the wound-down test, restarts, wakes and channels given back, each by its cases. -/
theorem slotsStopAndWindDown : Obligations.SlotsStopAndWindDown := by
  unfold Obligations.SlotsStopAndWindDown
  intro s k reason x e quells fetchDropped
  refine ⟨stopSlot_of_free, fun live => ?stops, stopSlot_of_stopping,
    fun h r stopping holds ends wound => testWound_frees stopping wound holds ends, testWound_of_busy, woundDown_iff,
    ⟨fun live => ?restarts, restart_of_other⟩, wakeSlot_of_no_wait, fun w waits => ?wakes,
    fun v => beq_iff_eq, fun n => beq_iff_eq, fun i l => beq_iff_eq, fun c => ?given⟩
  case stops =>
    have is : e = _ := stopSlot_of_live live
    rw [is]
    exact ⟨put_get_same .., fun j other => put_get_other _ _ other.symm, fetchDropped_dropFetch s k,
      channel_releaseChannels _ k _, rfl, rfl⟩
  case restarts =>
    rw [restart_of_live live]
    exact ⟨put_get_same .., fun j other => put_get_other _ _ other.symm, fetchDropped_dropFetch s k,
      channel_holdChannels _ k, rfl, rfl, rfl, rfl⟩
  case wakes =>
    rw [wakeSlot_of_wait waits]
    exact ⟨fun fails => if_neg (by simp [fails]), fun holds => if_pos holds⟩
  case given =>
    intro y tests
    have told : woundTask y.owner = tests := by
      simp only [tests]
      cases y.owner <;> rfl
    rw [← told]
    exact ⟨giveUpChannel_of_ended, giveUpChannel_of_not_ended, rfl⟩

end State

end Sys2Proof.Machine
end

section
/-! PROOFS: the course of an event task by task, and the run of a slot's due steps (file 06): a due step's command takes it
(`exec_stepCommand_of_stepIs`), its checks decide whether it acts (R99), and its effect is followed by the next due step
(R98). -/

namespace Sys2Proof.Machine

/-! ## The course of an event -/

/-- With fuel left, the first task is done, then what it asks for, then the rest. -/
theorem follow_cons {n : Nat} (fuel : n < Config.agendaFuel) (t : Task) (ts : List Task) (s : State) :
    follow n (s, t :: ts) = follow (n + 1) ((perform t s).1, (perform t s).2 ++ ts) := by
  have left : Config.agendaFuel - n = Config.agendaFuel - (n + 1) + 1 := by omega
  rw [follow, left, runTasks_cons]
  rfl

/-- A command's one task is what its event begins with. -/
theorem conclude_one (t : Task) (s : State) : conclude (s, [t]) = follow 1 (perform t s) := by
  have begins := follow_cons (n := 0) (by decide) t [] s
  rwa [List.append_nil] at begins

/-- Tasks all done leave their state at the event's end. -/
theorem leaves_of_follow {c : Instr} {s u : State} {n : Nat} (h : exec c s = .next (follow n (u, []))) : Leaves c s u :=
  ⟨u.settle, by rw [h, follow, runTasks_nil], State.closes_settle u⟩

/-- A last task that does nothing leaves the state at the event's end. -/
theorem leaves_of_follow_idle {c : Instr} {s u : State} {n : Nat} {t : Task} (fuel : n < Config.agendaFuel)
    (h : exec c s = .next (follow n (u, [t]))) (idle : perform t u = (u, [])) : Leaves c s u := by
  rw [follow_cons fuel, idle] at h
  exact leaves_of_follow h

namespace State

/-! ## When steps are taken (R98) -/

section Running

variable {s : State} {k : Fin 8} {kind : Option StepKind} {t : Step} {rest : List Step} {arrived : Option Nat}

theorem takesSteps_iff : s.takesSteps k = true ↔ (s.slot k).state = .running ∧ (s.slot k).wait = none := by
  simp [takesSteps]

/-- A slot that is not RUNNING, or that waits, takes no step. -/
theorem takeSteps_of_not_taking (stands : ¬ ((s.slot k).state = .running ∧ (s.slot k).wait = none)) :
    perform (.takeSteps k arrived) s = (s, []) :=
  if_neg (mt takesSteps_iff.1 stands)

/-- A slot whose next step is not due, or not read yet, takes none. -/
theorem takeSteps_of_stepRests (rests : s.stepRests k) : perform (.takeSteps k arrived) s = (s, []) := by
  obtain ⟨left, undue⟩ := rests
  by_cases taking : (s.slot k).state = .running ∧ (s.slot k).wait = none
  · show s.takeSteps k arrived = _
    rw [takeSteps, if_pos (takesSteps_iff.2 taking), if_neg (by simpa [hasRunOut] using left)]
    split
    · rfl
    · next front => exact if_neg (Nat.not_le.2 (undue _ _ front))
  · exact takeSteps_of_not_taking taking

theorem takeSteps_of_stepIs (is : s.stepIs k kind t rest) :
    perform (.takeSteps k arrived) s = s.takeStep k t rest arrived := by
  obtain ⟨-, running, free, left, front, due, -⟩ := is
  show s.takeSteps k arrived = _
  rw [takeSteps, if_pos (takesSteps_iff.2 ⟨running, free⟩), if_neg (by simpa [hasRunOut] using left), front]
  exact if_pos due

theorem stepDue_of_stepIs (is : s.stepIs k kind t rest) : s.stepDue k kind = true := by
  obtain ⟨-, running, free, left, front, due, kind⟩ := is
  simp [stepDue, takesSteps, hasRunOut, running, free, front, left, due, kind]

/-! ## One step is taken (R98, R99) -/

/-- The part past a step, its lateness told (log 50). -/
def tellLate (s : State) (k : Fin 8) (t : Step) (rest : List Step) (arrived : Option Nat) : State :=
  if arrived = some (s.slot k).next ∧ 100 < (s.slot k).clock - t.offset then
    (s.pastStep k rest).log .stepLate (s.slotDetail k ++ [(s.slot k).next, (s.slot k).clock - t.offset])
  else s.pastStep k rest

theorem tellLate_of_no_arrival : s.tellLate k t rest none = s.pastStep k rest := if_neg fun late => nomatch late.1

theorem lateness_eq (x : Slot) : lateness x t arrived =
    if arrived = some x.next ∧ 100 < x.clock - t.offset then some (x.clock - t.offset) else none := rfl

theorem takeStep_of_fails {check : Nat} (fails : s.failingCheck (s.slotScene k) (s.slot k).next t = some check) :
    s.takeStep k t rest arrived =
      ((s.tellLate k t rest arrived).log .scriptFault (s.slotDetail k ++ [(s.slot k).next, check]),
        [.stopSlot k .scriptFault]) := by
  simp only [takeStep, fails, lateness_eq, tellLate]
  split_ifs <;> rfl

theorem takeStep_of_passes (passes : s.failingCheck (s.slotScene k) (s.slot k).next t = none) :
    s.takeStep k t rest arrived = (s.tellLate k t rest arrived).act k (s.slot k).next t := by
  simp only [takeStep, passes, lateness_eq, tellLate]
  split_ifs <;> rfl

theorem slotDetail_of_holding {h : Holding} (holds : (s.slot k).holding = some h) :
    s.slotDetail k = [k.val, h.scene.val, h.startTime.toNat] := by
  simp only [slotDetail, holds]

end Running

/-! ## The checks of a step (R99) -/

section Checks

variable {s : State} {k : Fin 8} {scene : SceneRecord} {t : Step} {index : Nat}

/-- The first of some checks that fails stands at the length of those before it, which hold. -/
theorem firstFailing_getElem? : ∀ {l : List Bool}, l.all id = false →
    l[(l.takeWhile id).length]? = some false ∧ ∀ j < (l.takeWhile id).length, l[j]? = some true
  | [], fails => by simp at fails
  | false :: _, _ => by simp
  | true :: l, fails => by
    obtain ⟨here, before⟩ := firstFailing_getElem? (l := l) (by simpa using fails)
    refine ⟨by simpa using here, fun j lower => ?_⟩
    cases j with
    | zero => rfl
    | succ j => exact before j (by simpa using lower)

theorem failingCheck_of_kind {kind : StepKind} (is : t.kind = some kind) : s.failingCheck scene index t =
    (let checks := [true, decide (t.offset ≤ 3600000)] ++ s.ownChecks scene index t kind
     if checks.all id then none else some (checks.takeWhile id).length) := by
  simp only [failingCheck, is]
  rfl

theorem failingCheck_of_unknown (unknown : t.kind = none) : s.failingCheck scene index t = some 0 := by
  simp only [failingCheck, unknown]

/-- A check's number is its place among the checks of its kind (log 31). -/
theorem failingCheck_place {kind : StepKind} {n : Nat} (is : t.kind = some kind)
    (fails : s.failingCheck scene index t = some n) :
    let checks := [true, decide (t.offset ≤ 3600000)] ++ s.ownChecks scene index t kind
    checks[n]? = some false ∧ ∀ j < n, checks[j]? = some true := by
  intro checks
  rw [failingCheck_of_kind is] at fails
  obtain ⟨unmet, place⟩ := ite_eq_iff.1 fails |>.resolve_left (fun held => nomatch held.2)
  obtain rfl := Option.some.inj place
  exact firstFailing_getElem? (Bool.not_eq_true _ ▸ unmet)

theorem word16At_lt (l : List Byte) (i : Nat) : word16At l i < 65536 := by
  have low := byteAt_lt l i
  have high := byteAt_lt l (i + 1)
  unfold word16At
  omega

theorem axisInScene_iff {x : Nat} : s.axisInScene scene x = true ↔ s.axisServes scene x := by
  by_cases inside : x < 12
  · obtain ⟨n, rfl⟩ : ∃ n : Fin 12, x = n.val := ⟨⟨x, inside⟩, rfl⟩
    rw [axisInScene, numbered_eq_some.2 rfl]
    simp [axisServes, Fin.val_inj]
  · rw [axisInScene, numbered_of_le (Nat.not_lt.1 inside)]
    simp only [Bool.false_eq_true, false_iff]
    rintro ⟨n, rfl, -⟩
    exact inside n.isLt

theorem lampHolds_eq : s.lampHolds scene t =
    [decide (t.firstChannel ≤ 127), 1 ≤ t.channelCount && t.channelCount ≤ 32,
      decide (t.firstChannel + t.channelCount ≤ 128), decide (t.level ≤ 1000), decide (t.fade ≤ 60000),
      (fins 128).all fun c => !(t.firstChannel ≤ c.val && c.val < t.firstChannel + t.channelCount) ||
        (s.channel c).zone.any fun z => scene.hasZone z.val] := by
  unfold lampHolds
  congr
  funext c
  cases (s.channel c).zone <;> rfl

/-- The checks of a LAMP step; a range that ends within the channels begins within them. -/
theorem lampHolds_iff : (s.lampHolds scene t).all id = true ↔
    1 ≤ t.channelCount ∧ t.channelCount ≤ 32 ∧ t.firstChannel + t.channelCount ≤ 128 ∧ t.level ≤ 1000 ∧
      t.fade ≤ 60000 ∧ ∀ c : Fin 128, t.firstChannel ≤ c.val → c.val < t.firstChannel + t.channelCount →
        ∃ z, (s.channel c).zone = some z ∧ scene.hasZone z.val = true := by
  have inside : (1 ≤ t.channelCount ∧ t.firstChannel + t.channelCount ≤ 128) → t.firstChannel ≤ 127 := by omega
  simp only [lampHolds_eq, List.all_cons, List.all_nil, id, Bool.and_true, Bool.and_eq_true, decide_eq_true_eq,
    List.all_eq_true, mem_fins, true_implies, Bool.or_eq_true, Bool.not_eq_true', ← Bool.not_eq_true,
    ← imp_iff_not_or, and_imp, Option.any_eq_true]
  tauto

theorem narrateHolds_iff : (s.narrateHolds scene t).all id = true ↔
    scene.hasZone t.subject = true ∧ t.group < s.groupCount := by
  simp [narrateHolds]

theorem moveHolds_iff : (s.moveHolds scene t).all id = true ↔ s.axisServes scene t.subject ∧
    ∀ n : Fin 12, t.subject = n.val →
      (s.axisRecord n).travelMin ≤ t.position ∧ t.position ≤ (s.axisRecord n).travelMax := by
  simp only [moveHolds, List.all_cons, List.all_nil, id, Bool.and_true, Bool.and_eq_true, axisInScene_iff]
  refine and_congr_right fun ⟨n, is, _⟩ => ?_
  rw [is, numbered_eq_some.2 rfl]
  simp [Fin.val_inj]

theorem waitHolds_eq : s.waitHolds scene t =
    [decide (t.conditionCode ≤ 2), t.conditionCode != 0 || scene.hasZone t.subject,
      t.conditionCode != 1 || s.axisInScene scene t.subject,
      t.conditionCode != 2 || (numbered 24 t.subject).any fun i => (s.inputRecord i).kind != 0 && t.levelCode ≤ 1,
      decide (t.timeout ≤ 600000), decide (t.onTimeout ≤ 1)] := by
  unfold waitHolds
  cases numbered 24 t.subject <;> rfl

theorem waitHolds_iff : (s.waitHolds scene t).all id = true ↔
    t.conditionCode ≤ 2 ∧ (t.conditionCode = 0 → scene.hasZone t.subject = true) ∧
      (t.conditionCode = 1 → s.axisServes scene t.subject) ∧
      (t.conditionCode = 2 → t.levelCode ≤ 1 ∧ ∃ i : Fin 24, t.subject = i.val ∧ (s.inputRecord i).kind ≠ 0) ∧
      t.timeout ≤ 600000 ∧ t.onTimeout ≤ 1 := by
  have input : (∃ i, numbered 24 t.subject = some i ∧ (s.inputRecord i).kind ≠ 0 ∧ t.levelCode ≤ 1) ↔
      t.levelCode ≤ 1 ∧ ∃ i : Fin 24, t.subject = i.val ∧ (s.inputRecord i).kind ≠ 0 := by
    simp only [numbered_eq_some, ← and_assoc, exists_and_right]
    exact and_comm
  simp only [waitHolds_eq, List.all_cons, List.all_nil, id, Bool.and_true, Bool.and_eq_true, decide_eq_true_eq,
    Bool.or_eq_true, bne_iff_ne, ne_eq, ← imp_iff_not_or, axisInScene_iff, Option.any_eq_true, input]

/-- A step fails no check exactly when it passes (R99). -/
theorem failingCheck_eq_none_iff :
    s.failingCheck (s.slotScene k) (s.slot k).next t = none ↔ s.stepPasses k t := by
  cases is : t.kind with
  | none => simp [failingCheck_of_unknown is, stepPasses, is]
  | some kind =>
    have own : s.failingCheck (s.slotScene k) (s.slot k).next t = none ↔
        t.offset ≤ 3600000 ∧ (s.ownChecks (s.slotScene k) (s.slot k).next t kind).all id = true := by
      simp [failingCheck_of_kind is]
    rw [own]
    simp only [stepPasses, is]
    refine and_congr_right fun _ => ?_
    cases kind with
    | lamp => exact lampHolds_iff
    | narrate => exact narrateHolds_iff
    | move => exact moveHolds_iff
    | wait => exact waitHolds_iff
    | mark | finish => simp [ownChecks]
    | loop =>
      have fits : t.loopCount ≤ 65535 := Nat.lt_succ_iff.1 (word16At_lt t.bytes 8)
      simp [ownChecks, fits]

end Checks

/-! ## The commands of the due steps -/

/-- The command of a due step of each kind (R98). -/
def stepCommand (k : Fin 8) : Option StepKind → Instr
  | some .lamp => .lampStep k
  | some .narrate => .narrateStep k
  | some .move => .moveStep k
  | some .wait => .waitStep k
  | some .mark => .markStep k
  | some .loop => .loopStep k
  | some .finish => .endStep k
  | none => .unknownStepKind k

section Commands

variable {s : State} {k : Fin 8} {kind : Option StepKind} {t : Step} {rest : List Step}

theorem exec_stepCommand (s : State) (k : Fin 8) (kind : Option StepKind) :
    exec (stepCommand k kind) s = react s (s.stepDue k kind) (s, [.takeSteps k none]) := by
  cases kind with
  | none => rfl
  | some kind => cases kind <;> rfl

/-- A due step's command takes it. -/
theorem exec_stepCommand_of_stepIs (is : s.stepIs k kind t rest) :
    exec (stepCommand k kind) s = .next (follow 1 (s.takeStep k t rest none)) := by
  have ⟨released, _⟩ := is
  rw [exec_stepCommand, react, stepDue_of_stepIs is, released, ← takeSteps_of_stepIs is, ← conclude_one]
  rfl

/-- A due step that passes its checks acts on the part past it. -/
theorem exec_stepCommand_of_passes (is : s.stepIs k kind t rest) (passes : s.stepPasses k t) :
    exec (stepCommand k kind) s = .next (follow 1 ((s.pastStep k rest).act k (s.slot k).next t)) := by
  rw [exec_stepCommand_of_stepIs is, takeStep_of_passes (failingCheck_eq_none_iff.2 passes), tellLate_of_no_arrival]

/-- A step's effect, then the run of the steps now due. -/
theorem steps_of_exec {c : Instr} {u : State} (h : exec c s = .next (follow 1 (u, [.takeSteps k none]))) :
    Steps c s u k :=
  ⟨h, fun rests => leaves_of_follow_idle (by decide) h (takeSteps_of_stepRests rests)⟩

end Commands

end State

end Sys2Proof.Machine
end

section
/-! PROOFS: what due steps do (file 06), kind by kind: LAMP, NARRATE, MARK and END (R100, R101, R105), WAIT and LOOP (R103 to
R107), each the effect of `exec_stepCommand_of_passes` on the part past the step. -/

namespace Sys2Proof.Machine.State

section Actions

variable {s : State} {k : Fin 8} {t : Step} {rest : List Step}

/-! ## The action of each kind -/

theorem kind_of_stepIs {kind : Option StepKind} (is : s.stepIs k kind t rest) : t.kind = kind := by
  obtain ⟨-, -, -, -, -, -, kind⟩ := is
  exact kind

@[simp] theorem slot_pastStep (s : State) (k : Fin 8) (rest : List Step) :
    (s.pastStep k rest).slot k = { s.slot k with buffer := rest, next := (s.slot k).next + 1 } := put_get_same ..

theorem exec_lampStep (is : s.stepIs k (some .lamp) t rest) (passes : s.stepPasses k t) :
    exec (.lampStep k) s = .next (follow 1 ((s.pastStep k rest).takeLamp k t)) :=
  (exec_stepCommand_of_passes is passes).trans (by simp only [act, kind_of_stepIs is])

theorem exec_narrateStep (is : s.stepIs k (some .narrate) t rest) (passes : s.stepPasses k t) :
    exec (.narrateStep k) s = .next (follow 1 ((s.pastStep k rest).takeNarrate k t)) :=
  (exec_stepCommand_of_passes is passes).trans (by simp only [act, kind_of_stepIs is])

theorem exec_moveStep (is : s.stepIs k (some .move) t rest) (passes : s.stepPasses k t) :
    exec (.moveStep k) s = .next (follow 1 ((s.pastStep k rest).takeMove k t)) :=
  (exec_stepCommand_of_passes is passes).trans (by simp only [act, kind_of_stepIs is])

theorem exec_waitStep (is : s.stepIs k (some .wait) t rest) (passes : s.stepPasses k t) :
    exec (.waitStep k) s = .next (follow 1 ((s.pastStep k rest).takeWait k t)) :=
  (exec_stepCommand_of_passes is passes).trans (by simp only [act, kind_of_stepIs is])

theorem exec_markStep (is : s.stepIs k (some .mark) t rest) (passes : s.stepPasses k t) :
    exec (.markStep k) s = .next (follow 1 ((s.pastStep k rest).takeMark k (s.slot k).next t)) :=
  (exec_stepCommand_of_passes is passes).trans (by simp only [act, kind_of_stepIs is])

theorem exec_loopStep (is : s.stepIs k (some .loop) t rest) (passes : s.stepPasses k t) :
    exec (.loopStep k) s = .next (follow 1 ((s.pastStep k rest).takeLoop k (s.slot k).next t)) :=
  (exec_stepCommand_of_passes is passes).trans (by simp only [act, kind_of_stepIs is])

theorem exec_endStep (is : s.stepIs k (some .finish) t rest) (passes : s.stepPasses k t) :
    exec (.endStep k) s = .next (follow 1 (s.pastStep k rest, [.stopSlot k .completed])) :=
  (exec_stepCommand_of_passes is passes).trans (by simp only [act, kind_of_stepIs is])

/-- A step of a kind with no checks of its own passes with its offset (R99). -/
theorem stepPasses_of_uncheckable {kind : StepKind} (is : t.kind = some kind)
    (uncheckable : kind = .mark ∨ kind = .finish) (offset : t.offset ≤ 3600000) : s.stepPasses k t := by
  refine ⟨offset, ?_⟩
  rcases uncheckable with rfl | rfl <;> simp only [is]

/-! ## MARK, END and the script's end (R105) -/

theorem takeMark_of_holding {h : Holding} (holds : (s.slot k).holding = some h) (index : Nat) :
    s.takeMark k index t = (s.produce (.stepMark h.scene k index t.value), [.takeSteps k none]) := by
  simp only [takeMark, holds]

theorem steps_markStep {h : Holding} (is : s.stepIs k (some .mark) t rest) (passes : s.stepPasses k t)
    (holds : (s.slot k).holding = some h) :
    Steps (.markStep k) s ((s.pastStep k rest).produce (.stepMark h.scene k (s.slot k).next t.value)) k := by
  have taken := exec_markStep is passes
  rw [takeMark_of_holding (s := s.pastStep k rest) (by rw [slot_pastStep]; exact holds)] at taken
  exact steps_of_exec taken

theorem exec_scriptRunsOut (released : s.resetLow = false) (running : (s.slot k).state = .running)
    (free : (s.slot k).wait = none) (ended : (s.slotScene k).steps ≤ (s.slot k).next) :
    exec (.scriptRunsOut k) s = .next (conclude (s, [.stopSlot k .completed])) := by
  show execScriptRunsOut k s = _
  simp [execScriptRunsOut, react, isDue, takesSteps, hasRunOut, released, running, free, ended]

/-- A stop as COMPLETED neither cuts nor halts: it leaves the wound-down test alone to do (R108). -/
theorem stopSlot_completed (running : (s.slot k).state = .running) : perform (.stopSlot k .completed) s =
    (((s.dropFetch k).setSlot k ((s.slot k).stopped .completed)).releaseChannels k (s.slotScene k).releaseFade,
      [.testWound k]) :=
  stopSlot_of_live (.inr (.inl running))

end Actions

/-- Settles O51: the MARK step's record, then the two ends of a script. -/
theorem markAndEndSteps : Obligations.MarkAndEndSteps := by
  unfold Obligations.MarkAndEndSteps
  intro s k t rest h holds
  refine ⟨fun is offset => ?mark, fun is offset => ?finish, fun released running free ended => ?runsOut,
    fun u arrived stopping => takeSteps_of_not_taking fun taking => by cases stopping.symm.trans taking.1⟩
  case mark => exact steps_markStep is (stepPasses_of_uncheckable (kind_of_stepIs is) (.inl rfl) offset) holds
  case finish =>
    have taken := exec_endStep is (stepPasses_of_uncheckable (kind_of_stepIs is) (.inr rfl) offset)
    obtain ⟨-, live, -⟩ := is
    have running : ((s.pastStep k rest).slot k).state = .running := by rw [slot_pastStep]; exact live
    rw [follow_cons (by decide), stopSlot_completed running] at taken
    have slot := put_get_same (s.pastStep k rest).slots k (((s.pastStep k rest).slot k).stopped .completed)
    exact ⟨_, taken, congrArg Slot.state slot, congrArg Slot.endReason slot, congrArg Slot.buffer slot, rfl⟩
  case runsOut =>
    have taken := exec_scriptRunsOut released running free ended
    rw [conclude_one, stopSlot_completed running] at taken
    have slot := put_get_same s.slots k ((s.slot k).stopped .completed)
    exact ⟨_, taken, congrArg Slot.state slot, congrArg Slot.endReason slot, rfl⟩

/-! ## WAIT steps and their timeouts (R103, R104) -/

section Waits

variable {s : State} {k : Fin 8} {t : Step} {rest : List Step} {c : Condition} {w : Wait}

theorem conditionHolds_pastStep (s : State) (k : Fin 8) (rest : List Step) (c : Condition) :
    (s.pastStep k rest).conditionHolds c = s.conditionHolds c := by cases c <;> rfl

theorem takeWait_holds (names : t.condition = some c) (holds : s.conditionHolds c = true) :
    s.takeWait k t = (s, [.takeSteps k none]) := by
  simp only [takeWait, names, holds, if_true]

theorem takeWait_fails (names : t.condition = some c) (fails : s.conditionHolds c = false) : s.takeWait k t =
    (s.setSlot k { s.slot k with
      wait := some ⟨c, if t.timeout = 0 then none else some t.timeout, t.onTimeout == 1⟩ }, []) := by
  simp only [takeWait, names, fails, Bool.false_eq_true, if_false]

theorem exec_waitTimeout (released : s.resetLow = false) (live : (s.slot k).state = .running ∨ (s.slot k).state = .held)
    (waits : (s.slot k).wait = some w) (spent : w.remaining = some 0) :
    exec (.waitTimeout k) s = .next (conclude (s.timeOutWait k w)) := by
  show execWaitTimeout k s = _
  simp [execWaitTimeout, react, isDue, waitOver, released, waits, spent, live]

theorem timeOutWait_stops (stops : w.stops = true) : s.timeOutWait k w =
    (s.setSlot k { s.slot k with wait := none }, [.stopSlot k .waitTimeout]) :=
  if_pos stops

theorem timeOutWait_continues {h : Holding} (goesOn : w.stops = false) (holds : (s.slot k).holding = some h) :
    s.timeOutWait k w =
      ((s.setSlot k { s.slot k with wait := none }).log .waitTimeout
        [k.val, h.scene.val, h.startTime.toNat, (s.slot k).next - 1],
        if (s.slot k).state = .running then [.takeSteps k none] else []) := by
  refine (if_neg (by simp [goesOn])).trans ?_
  rw [slotDetail_of_holding holds]
  rfl

end Waits

/-! ## LOOP steps (R106, R107) -/

section Loops

variable {s : State} {k : Fin 8} {t : Step} {index : Nat}

theorem setSlot_setSlot (s : State) (k : Fin 8) (x y : Slot) : (s.setSlot k x).setSlot k y = s.setSlot k y := by
  simp [setSlot, put]

/-- A jump with the loop record it leaves (R107). -/
def jumpWith (s : State) (k : Fin 8) (t : Step) (l : Option LoopRecord) : State :=
  (s.dropFetch k).setSlot k { s.slot k with
    next := t.loopTarget, fetch := t.loopTarget, buffer := [], clock := min 3600000 t.targetOffset, loop := l }

/-- A jump keeps the loop record it finds. -/
theorem jump_eq (s : State) (k : Fin 8) (t : Step) : s.jump k t = s.jumpWith k t (s.slot k).loop := rfl

theorem jump_setSlot_loop (s : State) (k : Fin 8) (t : Step) (l : LoopRecord) :
    (s.setSlot k { s.slot k with loop := some l }).jump k t = s.jumpWith k t (some l) := by
  have slot := put_get_same s.slots k { s.slot k with loop := some l }
  rw [jump_eq, jumpWith, show (s.setSlot k _).slot k = _ from slot]
  exact setSlot_setSlot (s.dropFetch k) k ..

theorem takeLoop_forever (forever : t.loopCount = 0) :
    s.takeLoop k index t = (s.jumpWith k t (s.slot k).loop, []) :=
  if_pos forever

theorem takeLoop_again {l : LoopRecord} (counted : t.loopCount ≠ 0) (after : loopAfter (s.slot k) index t = l)
    (more : 0 < l.remaining) : s.takeLoop k index t = (s.jumpWith k t (some l), []) := by
  subst after
  rw [← jump_setSlot_loop]
  exact (if_neg counted).trans (if_pos more)

theorem takeLoop_ends {l : LoopRecord} (counted : t.loopCount ≠ 0) (after : loopAfter (s.slot k) index t = l)
    (last : l.remaining = 0) :
    s.takeLoop k index t = (s.setSlot k { s.slot k with loop := none }, [.takeSteps k none]) := by
  subst after
  exact (if_neg counted).trans (if_neg (Nat.not_lt.2 last.le))

/-- A loop record of the step's own is reduced; one restored with 0 stays at 0 (log 38). -/
theorem loopAfter_own {x : Slot} {l : LoopRecord} (record : x.loop = some l) (own : l.index = index) :
    loopAfter x index t = ⟨index, l.remaining - 1⟩ := by
  simp only [loopAfter, record, own, if_true]

theorem loopAfter_new {x : Slot} (foreign : ¬ ∃ l, x.loop = some l ∧ l.index = index) :
    loopAfter x index t = ⟨index, t.loopCount - 1⟩ := by
  unfold loopAfter
  split
  · rfl
  · next l record => exact if_neg fun own => foreign ⟨l, record, own⟩

end Loops

/-- Settles O50: WAIT steps, LOOP steps by their loop record, timeouts, and the script's end. -/
theorem waitsAndLoops : Obligations.WaitsAndLoops := by
  unfold Obligations.WaitsAndLoops
  intro s k x
  refine ⟨fun t rest is passes => ?waits, fun t rest is passes => ?loops,
    fun w released live waits spent => ?timeout, exec_scriptRunsOut⟩
  case waits =>
    intro u c names
    have taken := exec_waitStep is passes
    refine ⟨fun holds => ?_, fun fails => ?_⟩
    · rw [takeWait_holds names ((conditionHolds_pastStep ..).trans holds)] at taken
      exact steps_of_exec taken
    · rw [takeWait_fails names ((conditionHolds_pastStep ..).trans fails)] at taken
      exact leaves_of_follow taken
  case loops =>
    intro u jumped mine
    have taken := exec_loopStep is passes
    have record : (u.slot k).loop = x.loop := by rw [slot_pastStep]
    have jumps {l : LoopRecord} (counted : t.loopCount ≠ 0) (after : loopAfter (u.slot k) x.next t = l)
        (more : 0 < l.remaining) : Leaves (.loopStep k) s (jumped (some l)) := by
      rw [takeLoop_again (s := u) counted after more] at taken
      exact leaves_of_follow taken
    have passesOn {l : LoopRecord} (counted : t.loopCount ≠ 0) (after : loopAfter (u.slot k) x.next t = l)
        (last : l.remaining = 0) : Steps (.loopStep k) s (u.setSlot k { u.slot k with loop := none }) k := by
      rw [takeLoop_ends (s := u) counted after last] at taken
      exact steps_of_exec taken
    have new (foreign : ¬ mine) : loopAfter (u.slot k) x.next t = ⟨x.next, t.loopCount - 1⟩ :=
      loopAfter_new (by rwa [record])
    refine ⟨fun forever => ?_, fun foreign many => jumps (by omega) (new foreign) (Nat.sub_pos_of_lt many),
      fun foreign one => passesOn (by omega) (new foreign) (by simp [one]), fun l is own counted =>
        have reduced := loopAfter_own (t := t) (record.trans is) own
        ⟨fun many => jumps (by omega) reduced (Nat.sub_pos_of_lt many),
          fun last => passesOn (by omega) reduced (Nat.sub_eq_zero_of_le last)⟩⟩
    rw [takeLoop_forever (s := u) forever, record] at taken
    exact leaves_of_follow taken
  case timeout =>
    intro u
    have ends := exec_waitTimeout released live waits spent
    refine ⟨fun stops => ?_, fun h goesOn holds => ?_⟩
    · rw [timeOutWait_stops stops] at ends
      exact ends
    · rw [timeOutWait_continues goesOn holds] at ends
      refine ⟨fun running => ?_, fun held => ?_⟩
      · rw [if_pos running] at ends
        exact ⟨ends, fun rests => leaves_of_follow_idle (n := 0) (by decide) ends (takeSteps_of_stepRests rests)⟩
      · rw [if_neg (by rw [held]; decide)] at ends
        exact leaves_of_conclude ends

/-! ## LAMP and NARRATE steps (R100, R101, R121, R133, R141) -/

section Reaches

variable {s : State} {k : Fin 8} {t : Step} {v : Fin 8} {group : Nat}

theorem channel_lightChannels (s : State) (k : Fin 8) (first count target duration : Nat) (c : Fin 128) :
    (s.lightChannels k first count target duration).channel c =
      if first ≤ c.val ∧ c.val < first + count then
        { s.channel c with owner := some k, releasing := false,
                           fade := some ⟨(s.channel c).level, target, duration, 0, some s.showTime⟩ }
      else s.channel c := by
  refine (tabulate_get _ _).trans ?_
  simp only [Bool.and_eq_true, decide_eq_true_eq]
  rfl

theorem takeNarrate_of_subject (named : t.subject = v.val) :
    s.takeNarrate k t = (s.startNarration k v t.group, [.takeSteps k none]) := by
  rw [takeNarrate, numbered_eq_some.2 named]

theorem startNarration_of_idle (idle : (s.voice v).state = .idle) : s.startNarration k v group =
    s.setVoice v { s.voice v with owner := some k, group := some group, state := .lookup } := by
  simp only [startNarration, idle]

theorem startNarration_of_lookup (lookup : (s.voice v).state = .lookup) : s.startNarration k v group =
    (s.dropVoiceRequest v).setVoice v { s.voice v with group := some group } := by
  simp only [startNarration, lookup]

/-- A voice with a clip is cut, the new group to follow; one cut in silence stays silent (log 39). -/
theorem startNarration_of_clip (clip : (s.voice v).state.hasClip = true) : s.startNarration k v group =
    (s.dropVoiceRequest v).setVoice v ((s.voice v).cut s.showTime (some group)) := by
  cases state : (s.voice v).state with
  | idle | lookup | stopping => rw [state] at clip; cases clip
  | fetching | playing | starved | paused | draining => simp only [startNarration, state]

theorem startNarration_of_stopping (stopping : (s.voice v).state = .stopping) : s.startNarration k v group =
    s.setVoice v { s.voice v with pendingGroup := some group } := by
  simp only [startNarration, stopping]

end Reaches

/-- Settles O48: the steps that fail, the place of the failing check, a late step, and the steps that act. -/
theorem stepsAct : Obligations.StepsAct := by
  unfold Obligations.StepsAct
  intro s k t rest u
  refine ⟨fun c kind command is fails h holds => ?faults,
    ⟨failingCheck_eq_none_iff, failingCheck_of_unknown, fun kind n => failingCheck_place⟩,
    fun kind arrived h is holds => ?late, fun is passes => ?lamp, fun is passes z named => ?narrate,
    fun is passes h => steps_markStep is passes, exec_endStep⟩
  case faults =>
    obtain ⟨check, failing⟩ := Option.ne_none_iff_exists'.1 (mt failingCheck_eq_none_iff.1 fails)
    have command : c = stepCommand k kind := by
      simp only [List.mem_cons, List.not_mem_nil, or_false, Prod.mk.injEq] at command
      rcases command with ⟨rfl, rfl⟩ | ⟨rfl, rfl⟩ | ⟨rfl, rfl⟩ | ⟨rfl, rfl⟩ | ⟨rfl, rfl⟩ | ⟨rfl, rfl⟩ | ⟨rfl, rfl⟩ |
        ⟨rfl, rfl⟩ <;> rfl
    refine ⟨check, failing, ?_⟩
    rw [command, exec_stepCommand_of_stepIs is, takeStep_of_fails failing, tellLate_of_no_arrival,
      slotDetail_of_holding holds]
    rfl
  case late =>
    intro late detail told
    have tells : s.tellLate k t rest arrived = told := by
      rw [tellLate, slotDetail_of_holding holds]
      rfl
    rw [takeSteps_of_stepIs is]
    cases failing : s.failingCheck (s.slotScene k) (s.slot k).next t with
    | none => rw [takeStep_of_passes failing, tells]
    | some check =>
      rw [takeStep_of_fails failing, tells, slotDetail_of_holding holds]
      rfl
  case lamp =>
    exact ⟨steps_of_exec (exec_lampStep is passes), rfl, rfl, channel_lightChannels u k _ _ _ _⟩
  case narrate =>
    intro x
    have taken := exec_narrateStep is passes
    rw [takeNarrate_of_subject named] at taken
    have reaches := steps_of_exec taken
    refine ⟨fun idle => ?_, fun lookup => ?_, fun clip => ?_, fun stopping => ?_⟩
    · rwa [startNarration_of_idle (s := u) idle] at reaches
    · rwa [startNarration_of_lookup (s := u) lookup] at reaches
    · rwa [startNarration_of_clip (s := u) clip] at reaches
    · rwa [startNarration_of_stopping (s := u) stopping] at reaches

end Sys2Proof.Machine.State
end

section
/-! PROOFS: MOVE steps (R102, R150): the axis a move sets off (`Axis.beginMove_eq`), and what a MOVE step makes of an axis in
each of its states. -/

namespace Sys2Proof.Machine

/-! ## What a move makes of its axis (R150) -/

namespace Axis

variable {a : Axis} {rec' : AxisRecord} {owner : AxisOwner} {p : Nat} {first : ResumeAxis} {now : Time}

/-- An axis taken for a move, in no state of the motion yet: a known position has the target, an unknown one the pending
move. -/
def setOff (a : Axis) (owner : AxisOwner) (p : Nat) : Axis :=
  { a.begun owner with
    target := if a.homed then some p else none
    pendingMove := if a.homed then none else some p }

theorem beginMove_eq : a.beginMove rec' owner p now =
    (a.setOff owner p).entering rec' (if a.homed then .moving else .homing) now := by
  cases homed : a.homed <;> simp [beginMove, setOff, homed, begun]

/-- A motion that begins under a reason is suspended at rest where it is. -/
theorem beginMove_suspended (reason : a.hasReason = true) : a.beginMove rec' owner p now =
    { a.setOff owner p with
      state := .suspended, resumeTo := some (if a.homed then .moving else .homing), suspendedSince := some now } :=
  beginMove_eq.trans (if_pos reason)

theorem beginMove_moving (calm : a.hasReason = false) (homed : a.homed = true) :
    a.beginMove rec' owner p now = (a.setOff owner p).moving rec' := by
  rw [beginMove_eq, if_pos homed]
  exact if_neg (Bool.eq_false_iff.1 calm)

theorem beginMove_homing (calm : a.hasReason = false) (unhomed : a.homed = false) :
    a.beginMove rec' owner p now =
      { a.setOff owner p with state := .homing, resumeTo := none, direction := homeDirection rec' } := by
  rw [beginMove_eq, if_neg (Bool.eq_false_iff.1 unhomed)]
  exact if_neg (Bool.eq_false_iff.1 calm)

/-- A move begins at rest at the axis's position. -/
theorem speed_setOff (rests : a.state ≠ .homing) : (a.setOff owner p).speed rec' = .whole 0 := by
  unfold speed
  split
  · next homing => exact absurd homing rests
  · rfl

/-- The move's target is set as the axis sets off, and it takes up the way there. -/
theorem moving_setOff (homed : a.homed = true) (rests : a.state ≠ .homing) :
    (a.setOff owner p).moving rec' =
      let q := Run.toward rec' p (.whole 0) (.whole a.position) (.whole 0) a.direction
      { a.setOff owner p with state := .moving, resumeTo := none, run := some q.1, direction := q.2 } := by
  have target : (a.setOff owner p).target = some p := if_pos homed
  rw [moving, ramped, retargeted, aim, target, speed_setOff rests]
  simp only [Option.getD_some, target]
  rfl

end Axis

namespace State

section Moves

variable {s : State} {k : Fin 8} {t : Step} {n : Fin 12} {p : Nat}

theorem takeMove_of_subject (named : t.subject = n.val) : s.takeMove k t =
    ((s.startMove k n t.position).1, (s.startMove k n t.position).2 ++ [.takeSteps k none]) := by
  rw [takeMove, numbered_eq_some.2 named]

/-- An axis at rest begins the move; one FAULTED with its stall input active does not (R150). -/
theorem startMove_of_rest (rests : (s.syncedAxis n).state = .idle ∨ (s.syncedAxis n).state = .unhomed ∨
      (s.syncedAxis n).state = .faulted ∧ s.lines.stall.get n = .inactive) : s.startMove k n p =
    (s.setAxis n ((s.syncedAxis n).beginMove (s.axisRecord n) (.slot k) p s.showTime), [.findHome n, .arrive n]) := by
  rcases rests with idle | unhomed | ⟨faulted, calm⟩
  · simp only [startMove, idle]
  · simp only [startMove, unhomed]
  · simp only [startMove, faulted, calm, reduceCtorEq, if_false]

theorem startMove_of_stalled (faulted : (s.syncedAxis n).state = .faulted) (stall : s.lines.stall.get n = .active) :
    s.startMove k n p = (s, [.stopSlot k .axisFault]) := by
  simp only [startMove, faulted, stall, if_true]

theorem startMove_of_moving (moving : (s.syncedAxis n).state = .moving) : s.startMove k n p =
    (s.setAxis n { (s.syncedAxis n).retargeted (s.axisRecord n) p with elapsed := 0 }, [.arrive n]) := by
  simp only [startMove, moving]

/-- A motion on its way that is suspended, or slows for it, takes the new target. -/
theorem startMove_of_interrupted (interrupted : (s.syncedAxis n).state = .suspending ∨
      (s.syncedAxis n).state = .suspended ∧ (s.syncedAxis n).resumeTo ≠ some .homing) : s.startMove k n p =
    (s.setAxis n { s.syncedAxis n with target := some p, elapsed := 0 }, []) := by
  rcases interrupted with suspending | ⟨suspended, onward⟩
  · simp only [startMove, suspending]
  · simp only [startMove, suspended, if_neg onward]

/-- A homing, suspended or not, takes the new target as its pending move. -/
theorem startMove_of_homing (homing : (s.syncedAxis n).state = .homing ∨
      (s.syncedAxis n).state = .suspended ∧ (s.syncedAxis n).resumeTo = some .homing) : s.startMove k n p =
    (s.setAxis n { s.syncedAxis n with pendingMove := some p }, []) := by
  rcases homing with homing | ⟨suspended, homeward⟩
  · simp only [startMove, homing]
  · simp only [startMove, suspended, if_pos homeward]

theorem startMove_of_halting (halting : (s.syncedAxis n).state = .halting) : s.startMove k n p =
    (s.setAxis n { s.syncedAxis n with pendingMove := some p, owner := .slot k }, []) := by
  simp only [startMove, halting]

end Moves

/-- Settles O49, axis state by axis state. -/
theorem moveStepActs : Obligations.MoveStepActs := by
  unfold Obligations.MoveStepActs
  intro s k t rest n is passes named u rec' a p goes begun first rests
  have taken := exec_moveStep is passes
  rw [takeMove_of_subject named] at taken
  have starts {b : Axis} {tasks : List Task} (reached : u.startMove k n p = (u.setAxis n b, tasks)) : goes b tasks := by
    rw [reached] at taken
    exact taken
  have begins (resting : rests) : goes (a.beginMove rec' (.slot k) p s.showTime) [.findHome n, .arrive n] :=
    starts (startMove_of_rest (s := u) resting)
  have stands (resting : rests) : a.state ≠ .homing := by
    rcases resting with state | state | ⟨state, -⟩ <;> rw [state] <;> decide
  refine ⟨fun resting reason => ?suspended, fun resting calm homed => ?moving, fun resting calm unhomed => ?homing,
    fun faulted stall => ?stalled, fun moving => starts (startMove_of_moving (s := u) moving),
    fun state => starts (startMove_of_interrupted (s := u) (.inl state)),
    fun state onward => starts (startMove_of_interrupted (s := u) (.inr ⟨state, onward⟩)),
    fun homing => starts (startMove_of_homing (s := u) homing),
    fun halting => starts (startMove_of_halting (s := u) halting)⟩
  case suspended =>
    have goesOn := begins resting
    rw [Axis.beginMove_suspended reason] at goesOn
    exact ⟨_, goesOn, rfl⟩
  case moving =>
    have goesOn := begins resting
    rw [Axis.beginMove_moving calm homed, Axis.moving_setOff homed (stands resting)] at goesOn
    exact ⟨_, goesOn, rfl, rfl, rfl⟩
  case homing =>
    have goesOn := begins resting
    rw [Axis.beginMove_homing calm unhomed] at goesOn
    exact goesOn
  case stalled =>
    rw [startMove_of_stalled (s := u) faulted stall] at taken
    exact taken

end State

end Sys2Proof.Machine
end

section
/-! PROOFS: the arrival of script lines (R94 to R96, R113): the steps of a line as a range of places (`stepsOfLine_eq`), the
end of a load, and the reads that fail. -/

namespace Sys2Proof.Machine.State

/-! ## The steps of a script line (R94) -/

section Lines

variable {s : State} {k : Fin 8} {line : List Byte} {f : InFlight}

/-- The places below a count, of those there are. -/
theorem filterMap_fins_below {α : Type} (n c : Nat) (g : Nat → α) :
    (fins n).filterMap (fun i => if i.val < c then some (g i.val) else none) = (List.range (min n c)).map g := by
  induction n with
  | zero => simp [fins]
  | succ n ih =>
    have below : ((fins n).map Fin.castSucc).filterMap (fun i => if i.val < c then some (g i.val) else none) =
        (List.range (min n c)).map g := by rw [List.filterMap_map, ← ih]; rfl
    rw [fins, List.filterMap_append, below]
    by_cases inside : n < c
    · simp [inside, Nat.min_eq_left inside.le, List.range_succ]
    · have outside := Nat.not_lt.1 inside
      simp [inside, Nat.min_eq_right outside, Nat.min_eq_right (outside.trans n.le_succ)]

/-- The place in its line of the step a slot fetches next (R94). -/
def linePlace (s : State) (k : Fin 8) : Nat := ((s.slotScene k).script + 16 * (s.slot k).fetch) % 64 / 16

/-- How many steps a line brings: to its end, or to the script's (R94). -/
def arriving (s : State) (k : Fin 8) : Nat := min (4 - s.linePlace k) ((s.slotScene k).steps - (s.slot k).fetch)

theorem stepsOfLine_eq : s.stepsOfLine k line =
    (List.range (s.arriving k)).map fun i => ⟨slice line (16 * (s.linePlace k + i)) 16⟩ := by
  have four : min 4 (s.arriving k) = s.arriving k := Nat.min_eq_right ((Nat.min_le_left ..).trans (Nat.sub_le ..))
  rw [← four, ← filterMap_fins_below]
  refine List.filterMap_congr fun i _ => if_congr ?_ rfl rfl
  show i.val < 4 - s.linePlace k ∧ (s.slot k).fetch + i.val < (s.slotScene k).steps ↔ _
  unfold arriving
  omega

/-- The slot with a line's steps in its buffer (R94, R95). -/
def entered (s : State) (k : Fin 8) (line : List Byte) : Slot :=
  { s.slot k with
    buffer := (s.slot k).buffer ++
      (List.range (s.arriving k)).map fun i => ⟨slice line (16 * (s.linePlace k + i)) 16⟩
    fetch := (s.slot k).fetch + s.arriving k
    lines := if (s.slot k).state = .loading then min 2 ((s.slot k).lines + 1) else (s.slot k).lines }

theorem enterLine_eq : s.enterLine k line = (s.setSlot k (s.entered k line),
    [.endLoad k (some (s.slot k).fetch), .takeSteps k (some (s.slot k).fetch)]) := by
  simp only [enterLine, stepsOfLine_eq, List.length_map, List.length_range]
  rfl

theorem exec_scriptLineArrives (released : s.resetLow = false) (flies : s.port = some f)
    (purpose : f.purpose = .script k) (whole : line.length = f.length) : exec (.scriptLineArrives line) s =
      .next (conclude (if f.live then s.freePort.enterLine k line else (s.freePort, []))) := by
  show execScriptLineArrives line s = _
  simp [execScriptLineArrives, onAnswer, react, released, flies, purpose, whole]

theorem exec_scriptReadFailed (released : s.resetLow = false) (flies : s.port = some f)
    (purpose : f.purpose = .script k) :
    exec .scriptReadFailed s = .next (conclude (s.freePort.failFetch k f.live f.addr)) := by
  show execScriptReadFailed s = _
  simp [execScriptReadFailed, onAnswer, react, released, flies, purpose]

theorem failFetch_live {h : Holding} (holds : (s.slot k).holding = some h) (addr : Nat) :
    s.failFetch k true addr =
      (s.log .scriptReadFailed [k.val, h.scene.val, h.startTime.toNat, addr], [.stopSlot k .scriptReadFailed]) := by
  rw [failFetch, if_pos rfl, slotDetail_of_holding holds]
  rfl

end Lines

/-! ## The end of a load (R95, R113, R115) -/

section Loads

variable {s : State} {k : Fin 8} {x : Slot} {arrived : Option Nat}

/-- A slot whose load ends; a restored one takes its saved clock (R115). -/
def loaded (x : Slot) (state : SlotState) : Slot :=
  { x with state := state, clock := x.savedClock.getD 0, savedClock := none }

/-- Two lines have arrived, or the whole script (R95). -/
def LoadComplete (x : Slot) (steps : Nat) : Prop := 2 ≤ x.lines ∨ steps ≤ x.fetch

theorem slotScene_setSlot (same : x.holding = (s.slot k).holding) : (s.setSlot k x).slotScene k = s.slotScene k := by
  simp only [slotScene, slot_setSlot, if_true, same]
  rfl

theorem endLoad_of_pending (pending : ¬ ((s.slot k).state = .loading ∧ LoadComplete (s.slot k) (s.slotScene k).steps)) :
    perform (.endLoad k arrived) s = (s, []) :=
  if_neg (by simpa [LoadComplete] using pending)

theorem endLoad_of_complete (loading : (s.slot k).state = .loading)
    (complete : LoadComplete (s.slot k) (s.slotScene k).steps) : perform (.endLoad k arrived) s =
      if s.ctl.state = .hold then ((s.setSlot k (loaded (s.slot k) .held)).freezeFades k, [])
      else (s.setSlot k (loaded (s.slot k) .running), [.takeSteps k arrived]) :=
  if_pos (by simpa [loading, LoadComplete] using complete)

end Loads

/-- Settles O47: a line's arrival while the load goes on, at its end, and after it; then the failed reads. -/
theorem scriptLinesArrive : Obligations.ScriptLinesArrive := by
  unfold Obligations.ScriptLinesArrive
  intro s f k released flies purpose x free last place count
  have fails := exec_scriptReadFailed released flies purpose
  refine ⟨fun data whole => ?arrives, fun dead => ?discarded, fun live h holds => ?failed⟩
  case arrives =>
    have arrives := exec_scriptLineArrives released flies purpose whole
    refine ⟨fun dead => ?_, fun live => ?_⟩
    · rw [dead] at arrives
      exact leaves_of_conclude arrives
    · intro entered u
      rw [live, if_pos rfl, enterLine_eq] at arrives
      have asked : Asks (.scriptLineArrives data) s u [.endLoad k (some x.fetch), .takeSteps k (some x.fetch)] :=
        arrives
      have slot : u.slot k = entered := put_get_same ..
      have scene : u.slotScene k = s.slotScene k := slotScene_setSlot (s := free) rfl
      have tested : exec (.scriptLineArrives data) s = _ := asked.trans (congrArg _ (follow_cons (by decide) ..))
      have rests (pending : ¬ (entered.state = .loading ∧ LoadComplete entered last))
          (stands : ¬ (entered.state = .running ∧ entered.wait = none)) : Leaves (.scriptLineArrives data) s u := by
        rw [← slot] at pending stands
        rw [endLoad_of_pending (by rwa [scene])] at tested
        exact leaves_of_follow_idle (by decide) tested (takeSteps_of_not_taking stands)
      have ended (loading : x.state = .loading) (complete : LoadComplete entered last) :
          perform (.endLoad k (some x.fetch)) u =
            if s.ctl.state = .hold then ((free.setSlot k (loaded entered .held)).freezeFades k, [])
            else (free.setSlot k (loaded entered .running), [.takeSteps k (some x.fetch)]) := by
        rw [endLoad_of_complete (by rwa [slot]) (by rwa [slot, scene]), slot, setSlot_setSlot, setSlot_setSlot]
        rfl
      refine ⟨asked, fun loading few short => ?_, fun stands => ?_, fun loading complete hold => ?_,
        fun loading complete running => ?_⟩
      · refine rests (fun pending => pending.2.elim (Nat.not_le.2 few) (Nat.not_le.2 short)) fun taking => ?_
        cases loading.symm.trans taking.1
      · rcases stands with held | ⟨running, waits⟩
        · exact rests (fun pending => by cases held.symm.trans pending.1)
            fun taking => by cases held.symm.trans taking.1
        · exact rests (fun pending => by cases running.symm.trans pending.1) fun taking => by
            rw [show x.wait = none from taking.2] at waits
            cases waits
      · rw [ended loading complete, if_pos hold] at tested
        refine leaves_of_follow_idle (by decide) tested (takeSteps_of_not_taking fun taking => ?_)
        have held := congrArg Slot.state (put_get_same free.slots k (loaded entered .held))
        cases held.symm.trans taking.1
      · rw [ended loading complete, if_neg running] at tested
        exact tested
  case discarded =>
    rw [dead] at fails
    exact leaves_of_conclude fails
  case failed =>
    rw [live, failFetch_live (s := s.freePort) holds] at fails
    exact fails

end Sys2Proof.Machine.State
end

section
/-! PROOFS: the lamps (file 07). The law of the house lights over a step, the cues SET BASE LEVEL and HOUSE LIGHTS (R125,
R126), and the frame event: each channel's fade (R118), the frame of a link byte by byte (R190) and its bits (log 42). -/

namespace Sys2Proof.Machine

/-! ## The law of the house lights (R126) -/

theorem HouseLightsLaw.tick {s : State} (h : HouseLightsLaw s) : HouseLightsLaw s.tick := by
  unfold State.tick; split <;> exact h

/-- Settles O7: `HouseLightsLaw` holds throughout an event, at its end and at reset. -/
theorem stepKeepsHouseLightsLaw : Obligations.StepKeepsHouseLightsLaw := by
  intro s t h e
  exact step_keeps HouseLightsLaw HouseLightsLaw (pre := fun _ => id) (change := Change.houseLights)
    (settle := HouseLightsLaw.settle) (lines := fun _ _ => id) (pending := fun _ _ => id)
    (reset := fun _ => houseLightsLaw_reset) (tick := fun _ => HouseLightsLaw.tick) h e

/-! ## Base levels (R125) -/

section Rebased

variable {x : Channel} {level duration : Nat} {now : Time}

theorem Channel.rebased_of_unowned (unowned : x.owner = none) : x.rebased level duration now =
    { x with base := level, fade := some ⟨x.level, level, duration, 0, some now⟩ } := by
  simp only [rebased, unowned]
  rfl

theorem Channel.rebased_of_kept (owned : x.owner.isSome = true) (kept : x.releasing = false) :
    x.rebased level duration now = { x with base := level } := by
  obtain ⟨k, owner⟩ := Option.isSome_iff_exists.1 owned
  simp [rebased, owner, kept]

/-- A channel being released goes on to the new base in the time its release fade had left. -/
theorem Channel.rebased_of_releasing {f : Fade} (owned : x.owner.isSome = true) (releasing : x.releasing = true)
    (fading : x.fade = some f) : x.rebased level duration now =
      { x with
        base := level
        fade := some ⟨x.level, level, f.duration - (f.updated now).elapsed, 0, some now⟩ } := by
  obtain ⟨k, owner⟩ := Option.isSome_iff_exists.1 owned
  simp only [rebased, owner, releasing, fading, if_true]
  rfl

end Rebased

theorem baseLevelParam_eq_some {params : List Byte} {b : BaseLevel}
    (is : b = ⟨paramByte params 4, paramByte params 5, param16 params 6, param16 params 8⟩) (counts : 1 ≤ b.count)
    (within : b.first + b.count ≤ 128) (level : b.level ≤ 1000) (fade : b.fade ≤ 60000) :
    baseLevelParam params = some b := by
  have ranges : b.first ≤ 127 ∧ 1 ≤ b.count ∧ b.count ≤ 128 ∧ b.first + b.count ≤ 128 ∧ b.level ≤ 1000 ∧
      b.fade ≤ 60000 := by omega
  subst is
  exact if_pos ranges

namespace State

theorem channel_setBaseLevels (s : State) (b : BaseLevel) (n : Fin 128) : (s.setBaseLevels b).channel n =
    if b.first ≤ n.val ∧ n.val < b.first + b.count then (s.channel n).rebased b.level b.fade s.showTime
    else s.channel n := by
  refine (tabulate_get _ _).trans ?_
  simp only [Bool.and_eq_true, decide_eq_true_eq]
  rfl

/-! ## The cues of the lamps (R125, R126) -/

section Cues

variable {s : State} {c : TakenCue}

theorem cueSetBaseLevel_of_param {b : BaseLevel} (named : baseLevelParam c.params = some b) :
    s.cueSetBaseLevel c = ((s.answer c .accepted).setBaseLevels b, []) := by
  simp only [cueSetBaseLevel, named]

theorem cueHouseLights_on (on : paramByte c.params 4 = 1) : s.cueHouseLights c =
    ({ s.answer c .accepted with lamp := { s.lamp with houseLights := true } }, []) := by
  simp only [cueHouseLights, switchParam, on]
  rfl

/-- In SAFE the house lights are not turned off (R126). -/
theorem cueHouseLights_off_of_safe (off : paramByte c.params 4 = 0) (safe : s.ctl.state = .safe) :
    s.cueHouseLights c = s.refuse c .wrongState := by
  simp [cueHouseLights, switchParam, off, safe]

theorem cueHouseLights_off (off : paramByte c.params 4 = 0) (other : s.ctl.state ≠ .safe) : s.cueHouseLights c =
    ({ s.answer c .accepted with lamp := { s.lamp with houseLights := false } }, []) := by
  have allowed : ¬ (!false && s.ctl.state == .safe) = true := by simpa using other
  simp only [cueHouseLights, switchParam, off, if_neg allowed]
  rfl

end Cues

/-- Settles O35: SET BASE LEVEL channel by channel, HOUSE LIGHTS by its switch and the show state. -/
theorem lampCuesAct : Obligations.LampCuesAct := by
  unfold Obligations.LampCuesAct
  intro s c rest accepted
  refine ⟨fun head b is counts within level fade => ?base, fun head => ?house⟩
  case base =>
    intro u
    have taken : exec .setBaseLevel s = _ := exec_of_headIs head
    rw [unitOf, cueSetBaseLevel_of_param (baseLevelParam_eq_some is counts within level fade)] at taken
    refine ⟨leaves_of_conclude taken, rfl, rfl, fun n => ?_⟩
    intro x inRange
    have rebased (inside : inRange) : u.channel n = x.rebased b.level b.fade s.showTime :=
      (channel_setBaseLevels accepted b n).trans (if_pos inside)
    refine ⟨fun outside => (channel_setBaseLevels accepted b n).trans (if_neg outside),
      fun inside unowned => ?_, fun inside owned kept => ?_, fun f inside owned releasing fading => ?_⟩
    · rw [rebased inside, Channel.rebased_of_unowned unowned]
    · rw [rebased inside, Channel.rebased_of_kept owned kept]
    · rw [rebased inside, Channel.rebased_of_releasing owned releasing fading]
  case house =>
    have taken : exec .houseLights s = _ := exec_of_headIs head
    refine ⟨fun on => ?_, fun off => ⟨fun safe => ?_, fun other => ?_⟩⟩
    · rw [unitOf, cueHouseLights_on on] at taken
      exact leaves_of_conclude taken
    · rw [unitOf, cueHouseLights_off_of_safe (s := s.consumed rest) off safe] at taken
      exact leaves_of_conclude taken
    · rw [unitOf, cueHouseLights_off (s := s.consumed rest) off other] at taken
      exact leaves_of_conclude taken

end State

/-! ## Fades at a frame (R118, R119) -/

theorem Fade.elapsed_updated (f : Fade) (now : Time) : (f.updated now).elapsed =
    match f.since with
    | none => f.elapsed
    | some t => f.elapsed + elapsedSince t now := by
  unfold updated; cases f.since <;> rfl

/-- To bring a fade up to date touches its elapsed time and, while it runs, when that was counted. -/
theorem Fade.updated_eq (f : Fade) (now : Time) :
    f.updated now = { f with elapsed := (f.updated now).elapsed, since := f.since.map fun _ => now } := by
  obtain ⟨start, target, duration, elapsed, _ | since⟩ := f <;> rfl

section AtFrame

variable {x : Channel} {f : Fade} {now : Time}

theorem Fade.duration_updated : (f.updated now).duration = f.duration := by rw [updated_eq]

theorem Channel.atFrame_of_steady (steady : x.fade = none) : x.atFrame now = x := by simp only [atFrame, steady]

theorem Channel.atFrame_of_ended (fading : x.fade = some f) (ended : f.duration ≤ (f.updated now).elapsed) :
    x.atFrame now = { x with level := f.target, fade := none } := by
  have passed : (f.updated now).ended = true := by simpa [Fade.ended, Fade.duration_updated] using ended
  have target : (f.updated now).target = f.target := by rw [Fade.updated_eq]
  simp only [atFrame, fading, passed, target, if_true]

theorem Channel.atFrame_of_going (fading : x.fade = some f) (going : (f.updated now).elapsed < f.duration) :
    x.atFrame now = { x with level := (f.updated now).level, fade := some (f.updated now) } := by
  have lasts : ¬ (f.updated now).ended = true := by simpa [Fade.ended, Fade.duration_updated] using going
  simp only [atFrame, fading, if_neg lasts]

theorem Channel.releasedAt_iff : x.releasedAt now = true ↔
    x.releasing = true ∧ ∃ f, x.fade = some f ∧ f.duration ≤ (f.updated now).elapsed := by
  cases fading : x.fade <;> simp [releasedAt, fading, Fade.ended, Fade.duration_updated]

end AtFrame

/-! ## The frame of a link (R190) -/

/-- Two bytes hold a number's remainder by 2¹⁶. -/
theorem bytes16_mod (n : Nat) : bytes16 (n % 65536) = bytes16 n := by
  have high : n % 65536 / 256 % 256 = n / 256 % 256 := by omega
  simp only [bytes16, byteOf, List.cons.injEq, and_true]
  exact ⟨BitVec.eq_of_toNat_eq (by simp), BitVec.eq_of_toNat_eq (by simpa using high)⟩

theorem frameBytes_eq (link : Nat) (values : List Nat) : frameBytes link values =
    [0xA5, byteOf link] ++ (values ++ [(link + values.sum) % 65536]).flatMap bytes16 := by
  simp [frameBytes, bytes16_mod]

theorem length_frameBytes (link : Nat) (values : List Nat) : (frameBytes link values).length = 4 + 2 * values.length := by
  have carried := length_flatMap_of values bytes16 (m := 2) fun _ => rfl
  simp only [frameBytes, List.length_append, carried, bytes16, List.length_cons, List.length_nil]
  omega

theorem length_serialFrame (frame : List Byte) : (serialFrame frame).length = 11 * frame.length :=
  length_flatMap_of frame serialByte length_serialByte

theorem pairwise_fins (n : Nat) : (fins n).Pairwise (· < ·) := by
  rw [List.pairwise_iff_getElem]
  intro i j hi hj less
  rw [fins_getElem, fins_getElem]
  exact less

namespace State

/-- An idle link rests high. -/
theorem linkHigh_of_idle {s : State} {link : Fin 4} (idle : s.lamp.nextFrame = none ∨ s.lamp.frames.get link = [])
    (bit : Fin 250) : s.linkHigh link bit = true := by
  unfold linkHigh
  rcases idle with unset | empty
  · rw [unset]
  · rw [empty]
    cases s.lamp.nextFrame <;> rfl

/-- A bit time of the ms that begins `ms` after a frame event is that of the sent frame (log 42). -/
theorem linkHigh_after_frame {s : State} {d : Time} {ms : Nat} (next : s.lamp.nextFrame = some (d + 25))
    (now : s.showTime = d + BitVec.ofNat 32 ms) (soon : ms < 25) (link : Fin 4) (bit : Fin 250) :
    s.linkHigh link bit = (serialFrame (s.lamp.frames.get link)).getD (250 * ms + bit.val) true := by
  have sent : d + 25 - BitVec.ofNat 32 Config.framePeriod = d := BitVec.add_sub_cancel d _
  have since : elapsedSince d (d + BitVec.ofNat 32 ms) = ms := by
    unfold elapsedSince
    bv_omega
  simp only [linkHigh, next, now, sent, since]

/-! ## The frame event (R119, R120) -/

section FrameEvent

variable {s : State}

theorem exec_lampFrame {d : Time} (released : s.resetLow = false) (waits : s.lamp.nextFrame = some d)
    (elapsed : reached d s.showTime = true) : exec .lampFrame s = .next (conclude s.frameEvent) := by
  show execLampFrame s = _
  simp [execLampFrame, react, isDue, due, released, waits, elapsed]

theorem channel_sendFrames (s : State) (c : Fin 128) : s.sendFrames.channel c = (s.channel c).atFrame s.showTime :=
  channel_mapChannels s c fun x => x.atFrame s.showTime

/-- What a link's frame carries, of the channels as the frame event leaves them (R119, step 2). -/
def carriedOn (s : State) (link : Fin 4) : List Nat :=
  (fins 32).map fun j => (s.sendFrames.channel ⟨32 * link.val + j.val, by omega⟩).carried s.lamp.houseLights

theorem frames_sendFrames (s : State) (link : Fin 4) :
    s.sendFrames.lamp.frames.get link = frameBytes link.val (s.carriedOn link) :=
  tabulate_get _ _

theorem length_frames_sendFrames (s : State) (link : Fin 4) : (s.sendFrames.lamp.frames.get link).length = 68 := by
  simp [frames_sendFrames, length_frameBytes, carriedOn]

/-- The channels a frame event gives back, in rising number (R119, step 4). -/
def givenBack (s : State) : List (Fin 128) := (fins 128).filter fun c => (s.channel c).releasedAt s.showTime

theorem mem_givenBack {c : Fin 128} : c ∈ s.givenBack ↔ (s.channel c).releasing = true ∧
    ∃ f, (s.channel c).fade = some f ∧ f.duration ≤ (f.updated s.showTime).elapsed := by
  simp [givenBack, mem_fins, Channel.releasedAt_iff]

end FrameEvent

/-- Settles O53: the channels given back, each channel's fade, then each link's frame and its bits. -/
theorem lampFrameIsSent : Obligations.LampFrameIsSent := by
  unfold Obligations.LampFrameIsSent
  intro s d released waits elapsed u ended
  have sent : Asks .lampFrame s u (s.givenBack.map .giveUpChannel) := exec_lampFrame released waits elapsed
  have next : u.lamp.nextFrame = some (d + 25) := congrArg (Option.map (later · Config.framePeriod)) waits
  refine ⟨⟨s.givenBack, fun c => mem_givenBack, (pairwise_fins 128).filter _, sent⟩, fun lasting => ?leaves, rfl, rfl, next,
    fun c => ⟨fun steady => ?steady, fun f fading => ?fading⟩, fun link => ?link⟩
  case leaves =>
    have nobody : s.givenBack = [] := List.eq_nil_iff_forall_not_mem.2 fun c back => lasting c (mem_givenBack.1 back)
    rw [nobody] at sent
    exact leaves_of_asks sent
  case steady => rw [channel_sendFrames, Channel.atFrame_of_steady steady]
  case fading =>
    intro e
    have run : (f.updated s.showTime).elapsed = e := Fade.elapsed_updated f s.showTime
    refine ⟨fun passed => ?_, fun going => ?_⟩
    · rw [channel_sendFrames, Channel.atFrame_of_ended fading (run ▸ passed)]
    · rw [channel_sendFrames, Channel.atFrame_of_going fading (run ▸ going), Fade.updated_eq, run]
      rfl
  case link =>
    intro values
    have length : (u.lamp.frames.get link).length = 68 := length_frames_sendFrames s link
    refine ⟨(frames_sendFrames s link).trans (frameBytes_eq _ _), length, fun b => rfl, fun ms bit soon => ?_⟩
    intro v place
    have high : v.linkHigh link bit = (serialFrame (u.lamp.frames.get link)).getD place true :=
      linkHigh_after_frame (s := v) next rfl soon link bit
    refine ⟨fun byte here => ?_, fun past => ?_, fun idle => linkHigh_of_idle idle bit⟩
    · have bits := serialFrame_getElem? (u.lamp.frames.get link) place
      rw [show (u.lamp.frames.get link)[place / 11]? = some byte from here, Option.bind_some] at bits
      have inside : place % 11 < (serialByte byte).length := by
        rw [length_serialByte]; exact Nat.mod_lt _ (by decide)
      rw [high, List.getD_eq_getElem?_getD, bits, List.getElem?_eq_getElem inside]
      rfl
    · have beyond : (serialFrame (u.lamp.frames.get link)).length ≤ place := by
        rw [length_serialFrame, length]; exact past
      rw [high, List.getD_eq_default _ _ beyond]

end State

end Sys2Proof.Machine
end

section
/-! PROOFS: the reads of the voices (file 08). The clip a group record chooses (R130, R134, R135), the state a clip line moves
a voice to (R137, R145), the reads that fail (R143, R144), and a voice's becoming IDLE (R139). -/

namespace Sys2Proof.Machine

/-! ## The clip chosen (R130, R134, R135) -/

theorem chooseVariant_eq_some {line : List Byte} {language : Nat} {c : Clip} : chooseVariant line language = some c ↔
    variantOf line language = some c ∨ variantOf line language = none ∧ variantOf line 0 = some c := by
  unfold chooseVariant
  cases variantOf line language <;> simp

theorem chooseVariant_eq_none {line : List Byte} {language : Nat} :
    chooseVariant line language = none ↔ variantOf line language = none ∧ variantOf line 0 = none := by
  unfold chooseVariant
  cases variantOf line language <;> simp

theorem Clip.crosses_iff {c : Clip} : c.crosses = true ↔ c.bank + 1048576 < c.address + c.length := decide_eq_true_iff

/-- The voice with the clip it has chosen, at the clip's start (R134). -/
def Voice.choosing (x : Voice) (c : Clip) : Voice :=
  { x with state := .fetching, clip := some c, fetchPos := 0, playPos := 0, buffer := [], starvedReported := false }

/-! ## The state after a clip line (R137, R145) -/

namespace Voice

section AfterLine

variable {x : Voice} {held : Bool}

theorem afterLine_of_whole (flows : x.state = .fetching ∧ held = false ∨ x.state = .playing ∨ x.state = .starved)
    (whole : x.fetchPos = x.playedLength) : x.afterLine held = { x with state := .draining } := by
  rcases flows with ⟨fetching, running⟩ | playing | starved
  · simp [afterLine, fetching, running, whole]
  · simp [afterLine, playing, whole]
  · simp [afterLine, starved, whole]

theorem afterLine_of_whole_held (fetching : x.state = .fetching) (whole : x.fetchPos = x.playedLength) :
    x.afterLine true = { x with state := .paused, resumeTo := some .draining } := by
  simp [afterLine, fetching, whole]

theorem afterLine_of_filled (fetching : x.state = .fetching) (part : x.fetchPos ≠ x.playedLength)
    (filled : 2048 ≤ x.buffer.length) : x.afterLine held =
      if held then { x with state := .paused, resumeTo := some .playing } else { x with state := .playing } := by
  simp [afterLine, fetching, part, filled]

theorem afterLine_of_refilled (starved : x.state = .starved) (part : x.fetchPos ≠ x.playedLength)
    (refilled : 512 ≤ x.buffer.length) : x.afterLine held = { x with state := .playing } := by
  simp [afterLine, starved, part, refilled]

theorem afterLine_of_paused_whole (paused : x.state = .paused) (whole : x.fetchPos = x.playedLength) :
    x.afterLine held = { x with resumeTo := some .draining } := by
  simp [afterLine, paused, whole]

theorem afterLine_of_paused_refilled (paused : x.state = .paused) (part : x.fetchPos ≠ x.playedLength)
    (starved : x.resumeTo = some .starved) (refilled : 512 ≤ x.buffer.length) :
    x.afterLine held = { x with resumeTo := some .playing } := by
  simp [afterLine, paused, part, starved, refilled]

/-- A line that neither completes the clip nor fills the buffer far enough leaves the state. -/
theorem afterLine_of_short (stays : x.state = .playing ∧ x.fetchPos ≠ x.playedLength ∨
      x.state = .fetching ∧ x.fetchPos ≠ x.playedLength ∧ x.buffer.length < 2048 ∨
      x.state = .starved ∧ x.fetchPos ≠ x.playedLength ∧ x.buffer.length < 512 ∨
      x.state = .paused ∧ x.fetchPos ≠ x.playedLength ∧ (x.resumeTo ≠ some .starved ∨ x.buffer.length < 512)) :
    x.afterLine held = x := by
  rcases stays with ⟨playing, part⟩ | ⟨fetching, part, short⟩ | ⟨starved, part, short⟩ | ⟨paused, part, other | short⟩
  · simp [afterLine, playing, part]
  · simp [afterLine, fetching, part, Nat.not_le.2 short]
  · simp [afterLine, starved, part, Nat.not_le.2 short]
  · simp [afterLine, paused, part, other]
  · simp [afterLine, paused, part, Nat.not_le.2 short]

end AfterLine

end Voice

namespace State

/-! ## The commands of a voice's reads -/

section Reads

variable {s : State} {f : InFlight} {v : Fin 8} {data : List Byte}

theorem exec_clipGroupArrives (released : s.resetLow = false) (flies : s.port = some f) (purpose : f.purpose = .clipGroup v)
    (whole : data.length = f.length) : exec (.clipGroupArrives data) s =
      .next (conclude (if f.live && (s.voice v).state == .lookup then s.freePort.takeClipGroup v data
        else (s.freePort, []))) := by
  show execClipGroupArrives data s = _
  simp [execClipGroupArrives, onAnswer, react, released, flies, purpose, whole]

theorem exec_clipLineArrives (released : s.resetLow = false) (flies : s.port = some f) (purpose : f.purpose = .clipLine v)
    (whole : data.length = f.length) : exec (.clipLineArrives data) s =
      .next (conclude (if f.live then s.freePort.takeClipLine v data else s.freePort, [])) := by
  show execClipLineArrives data s = _
  simp [execClipLineArrives, onAnswer, react, released, flies, purpose, whole]

theorem exec_clipReadFailed (released : s.resetLow = false) (flies : s.port = some f)
    (purpose : f.purpose = .clipLine v ∨ f.purpose = .clipGroup v) :
    exec .clipReadFailed s = .next (conclude (s.freePort.failVoiceRead v f.live f.addr)) := by
  show execClipReadFailed s = _
  rcases purpose with line | group
  · simp [execClipReadFailed, onAnswer, react, released, flies, line]
  · simp [execClipReadFailed, onAnswer, react, released, flies, group]

/-! ## A group record arrives (R134, R135) -/

/-- Writing a voice twice leaves the second. -/
theorem setVoice_setVoice (s : State) (v : Fin 8) (x y : Voice) : (s.setVoice v x).setVoice v y = s.setVoice v y := by
  simp only [setVoice, put, Vector.set_set]

theorem log_setVoice (s : State) (v : Fin 8) (x : Voice) (code : FaultCode) (detail : List Nat) :
    (s.setVoice v x).log code detail = (s.log code detail).setVoice v x := rfl

theorem setPin_setVoice (s : State) (v : Fin 8) (x : Voice) (place : Fin 16) (pin : Option Pin) :
    (s.setVoice v x).setPin place pin = (s.setPin place pin).setVoice v x := rfl

theorem chooseClip_eq (s : State) (v : Fin 8) (c : Clip) : s.chooseClip v c =
    ((if c.crosses then s.log .clipWrap [v.val, ownerCode (s.voice v).owner, c.address, c.length] else s).setVoice v
      ((s.voice v).choosing c)).setPin (voicePlace v) (some c.pin) := by
  unfold chooseClip
  cases c.crosses
  · simp only [Bool.false_eq_true, if_false, setPin_setVoice, setVoice_setVoice, voice_setVoice, if_true]
    rfl
  · simp only [if_true, log_setVoice, setPin_setVoice, setVoice_setVoice, voice_setVoice]
    rfl

theorem chooseClip_of_crosses {c : Clip} (crosses : c.bank + 1048576 < c.address + c.length) : s.chooseClip v c =
    ((s.log .clipWrap [v.val, ownerCode (s.voice v).owner, c.address, c.length]).setVoice v
      ((s.voice v).choosing c)).setPin (voicePlace v) (some ⟨⟨c.address, c.bank + 1048576⟩,
        some ⟨c.bank, c.bank + (c.address + c.length - c.bank - 1048576)⟩⟩) := by
  rw [chooseClip_eq, Clip.pin, if_pos (Clip.crosses_iff.2 crosses), if_pos (Clip.crosses_iff.2 crosses)]
  rfl

theorem chooseClip_of_fits {c : Clip} (fits : c.address + c.length ≤ c.bank + 1048576) : s.chooseClip v c =
    (s.setVoice v ((s.voice v).choosing c)).setPin (voicePlace v)
      (some ⟨⟨c.address, c.address + c.length⟩, none⟩) := by
  have within := mt Clip.crosses_iff.1 (Nat.not_lt.2 fits)
  rw [chooseClip_eq, Clip.pin, if_neg within, if_neg within]

theorem takeClipGroup_of_variant {c : Clip} (chosen : chooseVariant data (s.zone v).language = some c) :
    s.takeClipGroup v data = (s.chooseClip v c, []) := by
  rw [takeClipGroup, chosen]

theorem takeClipGroup_of_missing (missing : chooseVariant data (s.zone v).language = none) :
    s.takeClipGroup v data = (s.log .clipMissing [v.val, ownerCode (s.voice v).owner, (s.voice v).group.getD 0,
      (s.zone v).language], [.idleVoice v]) := by
  rw [takeClipGroup, missing]
  rfl

/-! ## A voice's request and its becoming IDLE (R139, R143) -/

theorem wakeTasks_isVoice (s : State) (v : Fin 8) : wakeTasks s (Condition.isVoice v) =
    ((fins 8).filter fun j => match (s.slot j).wait with
      | some ⟨.voice w, _, _⟩ => w == v
      | _ => false).map Task.wakeSlot := by
  refine congrArg (List.map Task.wakeSlot) (List.filter_congr fun k _ => ?_)
  cases (s.slot k).wait with
  | none => rfl
  | some w =>
    obtain ⟨condition, _, _⟩ := w
    cases condition <;> rfl

theorem idleVoice_of_idle (idle : (s.voice v).state = .idle) : perform (.idleVoice v) s = (s, []) := if_pos idle

theorem idleVoice_of_busy (busy : (s.voice v).state ≠ .idle) : perform (.idleVoice v) s =
    (((s.dropVoiceRequest v).setPin (voicePlace v) none).setVoice v (s.voice v).idled,
      wakeTasks s (Condition.isVoice v) ++ woundTask (s.voice v).owner ++ [.quietTest]) := if_neg busy

end Reads

/-- Settles O54: a group record, a clip line and a failed read, each live and discarded; then a voice's becoming IDLE. -/
theorem voicesReadClips : Obligations.VoicesReadClips := by
  unfold Obligations.VoicesReadClips
  intro s f v released flies x free language
  refine ⟨fun purpose data whole => ?group, fun purpose data whole => ?line, fun purpose => ?failed,
    fun busy => ?idles, idleVoice_of_idle⟩
  case group =>
    have arrives := exec_clipGroupArrives released flies purpose whole
    refine ⟨fun dead => ?_, fun live lookup => ?_⟩
    · rw [dead] at arrives
      exact leaves_of_conclude arrives
    · have taken : exec (.clipGroupArrives data) s = .next (conclude (free.takeClipGroup v data)) := by
        rwa [live, show (s.voice v).state = .lookup from lookup] at arrives
      refine ⟨fun c chosen => ?_, fun none own => ?_⟩
      · rw [takeClipGroup_of_variant (s := free) (chooseVariant_eq_some.2 chosen)] at taken
        refine ⟨fun crosses => ?_, fun fits => ?_⟩
        · rw [chooseClip_of_crosses crosses] at taken
          exact leaves_of_conclude taken
        · rw [chooseClip_of_fits fits] at taken
          exact leaves_of_conclude taken
      · rw [takeClipGroup_of_missing (s := free) (chooseVariant_eq_none.2 ⟨none, own⟩)] at taken
        exact taken
  case line =>
    have arrives := exec_clipLineArrives released flies purpose whole
    refine ⟨fun dead => ?_, fun live => ?_⟩
    · rw [dead] at arrives
      exact leaves_of_conclude arrives
    · intro y whole held moves
      rw [live] at arrives
      have moved {z : Voice} (after : y.afterLine (s.ctl.state == .hold) = z) : moves z :=
        after ▸ leaves_of_conclude arrives
      have hold (in_hold : held) : (s.ctl.state == .hold) = true := beq_iff_eq.2 in_hold
      have run (out : ¬ held) : (s.ctl.state == .hold) = false := beq_eq_false_iff_ne.2 out
      refine ⟨fun flows all => ?_, fun fetching is all => ?_, fun fetching part filled => ?_,
        fun starved part refilled => moved (Voice.afterLine_of_refilled starved part refilled),
        fun paused all => moved (Voice.afterLine_of_paused_whole paused all),
        fun paused part starved refilled => moved (Voice.afterLine_of_paused_refilled paused part starved refilled),
        fun stays => moved (Voice.afterLine_of_short stays)⟩
      · exact moved (Voice.afterLine_of_whole (flows.imp_left (And.imp_right run)) all)
      · exact moved (hold is ▸ Voice.afterLine_of_whole_held fetching all)
      · refine moved ((Voice.afterLine_of_filled (x := y) fetching part filled).trans (if_congr beq_iff_eq rfl rfl))
  case failed =>
    have fails := exec_clipReadFailed released flies purpose
    refine ⟨fun dead => ?_, fun live => ?_⟩
    · rw [dead] at fails
      exact leaves_of_conclude fails
    · rw [live] at fails
      exact fails
  case idles =>
    intro e
    have is : e = _ := idleVoice_of_busy busy
    rw [is, wakeTasks_isVoice]
    refine ⟨put_get_same .., put_get_same .., put_get_same .., fun w other => put_get_other _ _ other.symm, ?_⟩
    cases x.owner <;> rfl

end State

end Sys2Proof.Machine
end

section
/-! PROOFS: sample instants and cuts (file 08). A voice at a sample instant by its state (R132, R138, R140), the eight voices
of an instant (log 8), a cut and its end (R141), what a withdrawn request leaves (R143), and the resumption (R145). -/

namespace Sys2Proof.Machine

/-! ## A voice at a sample instant (R132, R138, R140) -/

namespace Voice

section Sampled

variable {x : Voice} {now : Time}

theorem sampled_of_silent (silent : x.state = .idle ∨ x.state = .lookup ∨ x.state = .fetching ∨ x.state = .starved ∨
    x.state = .paused) : x.sampled now = x.silent := by
  rcases silent with idle | lookup | fetching | starved | paused
  · simp only [sampled, idle]
  · simp only [sampled, lookup]
  · simp only [sampled, fetching]
  · simp only [sampled, starved]
  · simp only [sampled, paused]

theorem sampled_of_sounding (sounding : x.state = .playing ∧ 2 ≤ x.buffer.length ∨ x.state = .draining) :
    x.sampled now = x.advanced ((x.nextSample * x.gain).tdiv 100) := by
  rcases sounding with ⟨playing, full⟩ | draining
  · simp [sampled, playing, full]
  · simp only [sampled, draining]

theorem sampled_of_starving (playing : x.state = .playing) (short : x.buffer.length < 2) :
    x.sampled now = { x with state := .starved, starvedReported := true, output := 0 } := by
  simp [sampled, silent, playing, Nat.not_le.2 short]

theorem sampled_of_cut_in_silence (stopping : x.state = .stopping) (mute : x.buffer.length < 2 ∨ x.muted = true) :
    x.sampled now = x.silent := by
  rcases mute with short | muted
  · simp [sampled, stopping, Nat.not_le.2 short]
  · simp [sampled, stopping, muted]

theorem sampled_of_cut (stopping : x.state = .stopping) (full : 2 ≤ x.buffer.length) (sounds : x.muted = false) :
    x.sampled now = x.advanced ((x.nextSample * x.gain * x.cutLeft now).tdiv 5000) := by
  simp [sampled, stopping, full, sounds]

theorem cutLeft_of_deadline {d : Time} (cut : x.cutDeadline = some d) :
    x.cutLeft now = 50 - (now - (d - 50)).toNat := by
  rw [cutLeft, cut]
  rfl

theorem gain_eq (x : Voice) : (x.gain : Int) = match x.clip with
    | some c => (c.gain : Int)
    | none => 0 := by
  unfold gain
  cases x.clip <;> rfl

/-- No voice begins to drain at a sample instant. -/
theorem sampled_state_draining : (x.sampled now).state = .draining ↔ x.state = .draining := by
  cases state : x.state with
  | idle | lookup | fetching | starved | paused => simp [sampled_of_silent, silent, state]
  | draining => simp [sampled_of_sounding, advanced, state]
  | playing =>
    by_cases full : 2 ≤ x.buffer.length
    · simp [sampled_of_sounding (.inl ⟨state, full⟩), advanced, state]
    · simp [sampled_of_starving state (Nat.not_le.1 full)]
  | stopping =>
    by_cases mute : x.buffer.length < 2 ∨ x.muted = true
    · simp [sampled_of_cut_in_silence state mute, silent, state]
    · obtain ⟨full, sounds⟩ := not_or.1 mute
      simp [sampled_of_cut state (Nat.not_lt.1 full) (Bool.not_eq_true _ ▸ sounds), advanced, state]

/-- A voice has played its last sample when it drains and two bytes bring it to the clip's end (R140). -/
theorem finished_sampled : (x.sampled now).finished = true ↔ x.state = .draining ∧ x.playPos + 2 = x.playedLength := by
  rw [finished, Bool.and_eq_true, beq_iff_eq, sampled_state_draining, beq_iff_eq, and_congr_right_iff]
  intro draining
  rw [sampled_of_sounding (.inr draining)]
  rfl

theorem reportsStarving_iff : x.reportsStarving = true ↔
    x.state = .playing ∧ x.buffer.length < 2 ∧ x.starvedReported = false := by
  simp [reportsStarving, and_assoc]

end Sampled

/-! ## Cuts and the resumption (R141, R145) -/

theorem resumed_eq (x : Voice) : x.resumed = match x.state, x.resumeTo with
    | .paused, some .playing => { x with state := .playing, resumeTo := none }
    | .paused, some .starved => { x with state := .starved, resumeTo := none }
    | .paused, some .draining => { x with state := .draining, resumeTo := none }
    | _, _ => x := by
  unfold resumed
  by_cases paused : x.state = .paused
  · rw [if_pos paused, paused]
    rcases x.resumeTo with _ | _ | _ | _ <;> rfl
  · rw [if_neg paused]
    cases state : x.state with
    | paused => exact absurd state paused
    | idle | lookup | fetching | playing | starved | draining | stopping => rfl

end Voice

theorem Purpose.isVoice_iff {v : Fin 8} {p : Purpose} : p.isVoice v = true ↔ p = .clipLine v ∨ p = .clipGroup v := by
  cases p <;> simp [Purpose.isVoice]

/-! ## Tasks that ask for nothing more -/

/-- Tasks that ask for nothing while a property holds, which each keeps, are done in their order. -/
theorem follow_of_asking_nothing {P : State → Prop} {tasks : List Task} {n : Nat} {s : State}
    (nothing : ∀ t ∈ tasks, ∀ u, P u → (perform t u).2 = [] ∧ P (perform t u).1)
    (fuel : n + tasks.length ≤ Config.agendaFuel) (begins : P s) : follow n (s, tasks) =
      follow (n + tasks.length) (tasks.foldl (fun u t => (perform t u).1) s, []) := by
  induction tasks generalizing n s with
  | nil => rfl
  | cons t ts ih =>
    rw [List.length_cons] at fuel ⊢
    obtain ⟨asks, keeps⟩ := nothing t List.mem_cons_self s begins
    rw [follow_cons (by omega), asks, List.nil_append,
      ih (fun r there => nothing r (List.mem_cons_of_mem t there)) (by omega) keeps, Nat.add_right_comm, Nat.add_assoc]
    rfl

namespace State

section Samples

variable {s : State} {v : Fin 8}

/-! ## One voice at a sample instant -/

theorem voice_sampleVoice (s : State) (v w : Fin 8) : (perform (.sampleVoice v) s).1.voice w =
    if v = w then (s.voice v).sampled s.showTime else s.voice w := by
  have stand : (if (s.voice v).reportsStarving then s.reportStarving v else s).voices = s.voices := by split_ifs <;> rfl
  refine (voice_setVoice ..).trans (if_congr Iff.rfl rfl ?_)
  rw [voice, stand]
  rfl

theorem rest_sampleVoice (s : State) (v : Fin 8) : { (perform (.sampleVoice v) s).1 with voices := s.voices } =
    if (s.voice v).reportsStarving then s.reportStarving v else s := by
  simp only [perform, sampleVoice]
  split_ifs <;> rfl

theorem reportStarving_of_clip {c : Clip} (clip : (s.voice v).clip = some c) : s.reportStarving v =
    (s.produce (.voiceStarved v (s.voice v).owner c.address)).log .starved
      [v.val, ownerCode (s.voice v).owner, c.address, (s.voice v).playPos] := by
  rw [reportStarving, clip]
  rfl

theorem tasks_sampleVoice (s : State) (v : Fin 8) : (perform (.sampleVoice v) s).2 =
    if (s.voice v).state = .draining ∧ (s.voice v).playPos + 2 = (s.voice v).playedLength then [.idleVoice v] else [] :=
  if_congr Voice.finished_sampled rfl rfl

/-! ## The eight voices of an instant (log 8) -/

def NoneDrains (s : State) : Prop := ∀ v, (s.voice v).state ≠ .draining

theorem sampleVoice_of_noneDrains (none : s.NoneDrains) (v : Fin 8) :
    (perform (.sampleVoice v) s).2 = [] ∧ (perform (.sampleVoice v) s).1.NoneDrains := by
  refine ⟨(tasks_sampleVoice s v).trans (if_neg fun last => none v last.1), fun w => ?_⟩
  rw [voice_sampleVoice]
  split_ifs
  · exact mt Voice.sampled_state_draining.1 (none v)
  · exact none w

theorem exec_sampleInstant (released : s.resetLow = false) (few : s.sampleCount < 24) :
    exec .sampleInstant s = .next (conclude s.sampleAll) := by
  show execSampleInstant s = _
  simp [execSampleInstant, react, isDue, Config.samplesPerMs, released, few]

/-! ## Cuts (R141) -/

theorem port_dropVoiceRequest (s : State) (v : Fin 8) : (s.dropVoiceRequest v).port =
    s.port.map fun f => { f with live := f.live && f.purpose != .clipLine v && f.purpose != .clipGroup v } := by
  refine congrArg (s.port.map ·) (funext fun f => ?_)
  by_cases mine : f.purpose = .clipLine v ∨ f.purpose = .clipGroup v
  · rw [if_pos (Purpose.isVoice_iff.2 mine)]
    rcases mine with line | group
    · simp [line]
    · simp [group]
  · obtain ⟨line, group⟩ := not_or.1 mine
    rw [if_neg (mt Purpose.isVoice_iff.1 mine), bne_iff_ne.2 line, bne_iff_ne.2 group, Bool.and_true, Bool.and_true]

theorem cutVoice_of_idle (idle : (s.voice v).state = .idle) : perform (.cutVoice v) s = (s, []) := by
  simp only [perform, cutVoice, idle]

theorem cutVoice_of_lookup (lookup : (s.voice v).state = .lookup) : perform (.cutVoice v) s = (s, [.idleVoice v]) := by
  simp only [perform, cutVoice, lookup]

theorem cutVoice_of_clip (clip : (s.voice v).state = .fetching ∨ (s.voice v).state = .playing ∨
      (s.voice v).state = .starved ∨ (s.voice v).state = .draining ∨ (s.voice v).state = .paused) :
    perform (.cutVoice v) s = ((s.dropVoiceRequest v).setVoice v ((s.voice v).cut s.showTime none), []) := by
  rcases clip with fetching | playing | starved | draining | paused
  · simp only [perform, cutVoice, fetching]
  · simp only [perform, cutVoice, playing]
  · simp only [perform, cutVoice, starved]
  · simp only [perform, cutVoice, draining]
  · simp only [perform, cutVoice, paused]

theorem cutVoice_of_stopping (stopping : (s.voice v).state = .stopping) : perform (.cutVoice v) s =
    (s.setVoice v { s.voice v with pendingGroup := none }, []) := by
  simp only [perform, cutVoice, stopping]

theorem exec_cutDeadline {d : Time} (released : s.resetLow = false) (stopping : (s.voice v).state = .stopping)
    (cut : (s.voice v).cutDeadline = some d) (elapsed : reached d s.showTime = true) :
    exec (.cutDeadline v) s = .next (conclude (s.endCut v)) := by
  show execCutDeadline v s = _
  simp [execCutDeadline, react, isDue, due, released, stopping, cut, elapsed]

theorem endCut_of_no_group (none : (s.voice v).pendingGroup = none) : s.endCut v = (s, [.idleVoice v]) := by
  simp only [endCut, none]

theorem endCut_of_group {g : Nat} (pending : (s.voice v).pendingGroup = some g) : s.endCut v =
    ((s.setPin (voicePlace v) none).setVoice v { s.voice v with
      state := .lookup, group := some g, pendingGroup := none, cutDeadline := none, buffer := [], clip := none,
      fetchPos := 0, playPos := 0, muted := false }, []) := by
  simp only [endCut, pending]

theorem voice_resumeVoices (s : State) (v : Fin 8) : s.resumeVoices.voice v = (s.voice v).resumed := tabulate_get _ _

end Samples

/-- Settles O55: a sample instant, one voice at it by its state, a cut's end, a cut by the voice's state, the resumption. -/
theorem samplesAndCuts : Obligations.SamplesAndCuts := by
  unfold Obligations.SamplesAndCuts
  intro s released
  refine ⟨fun few => ?instant, fun v => ?sample, fun v d stopping cut elapsed => ?ends, fun v => ?cuts, rfl, rfl,
    fun v => (voice_resumeVoices s v).trans (Voice.resumed_eq _)⟩
  case instant =>
    intro u
    have asked := exec_sampleInstant released few
    refine ⟨asked, fun steady => ?_⟩
    have run := follow_of_asking_nothing (n := 0) (s := u) (tasks := (fins 8).map .sampleVoice) (P := NoneDrains)
      (List.forall_mem_map.2 fun v _ t none => sampleVoice_of_noneDrains none v) (by decide) steady
    rw [List.foldl_map] at run
    exact leaves_of_follow (asked.trans (congrArg _ run))
  case sample =>
    intro x e y sample gain played reports
    have is : y = x.sampled s.showTime := (voice_sampleVoice s v v).trans (if_pos rfl)
    have level : (x.gain : Int) = gain := x.gain_eq
    refine ⟨fun w other => (voice_sampleVoice s v w).trans (if_neg other.symm),
      fun quiet => (rest_sampleVoice s v).trans (if_neg (mt Voice.reportsStarving_iff.1 quiet)),
      fun c starves clip => ?_, tasks_sampleVoice s v, fun silent => is.trans (Voice.sampled_of_silent silent),
      fun sounding => ?_, fun playing short => is.trans (Voice.sampled_of_starving playing short),
      fun stopping mute => is.trans (Voice.sampled_of_cut_in_silence stopping mute), fun d stopping full sounds cut => ?_⟩
    · rw [← reportStarving_of_clip clip]
      exact (rest_sampleVoice s v).trans (if_pos (Voice.reportsStarving_iff.2 starves))
    · rw [is, Voice.sampled_of_sounding sounding, level]
      rfl
    · rw [is, Voice.sampled_of_cut stopping full sounds, level, Voice.cutLeft_of_deadline cut]
      rfl
  case ends =>
    have ended := exec_cutDeadline released stopping cut elapsed
    refine ⟨fun none => ?_, fun g pending => ?_⟩
    · rw [endCut_of_no_group none] at ended
      exact ended
    · rw [endCut_of_group pending] at ended
      exact leaves_of_conclude ended
  case cuts =>
    intro x e t
    refine ⟨cutVoice_of_idle, cutVoice_of_lookup, cutVoice_of_clip, cutVoice_of_stopping, put_get_same ..,
      fun w other => put_get_other _ _ other.symm, rfl, fun f flies => ?_, rfl⟩
    rw [port_dropVoiceRequest, flies]
    rfl

end State

end Sys2Proof.Machine
end

section
/-! PROOFS: how motions end (R152, R155, R157, R160): what bringing an axis to the present instant and slowing it leave alone
(`Axis.synced_eq`, `Axis.slowed_eq`), what an arrival and a halt's end ask for by the axis's state, and the limits. -/

namespace Sys2Proof.Machine

/-! ## The axis at the present instant (R149, log 11) -/

namespace Axis

variable (rec' : AxisRecord) (a : Axis)

/-- Bringing an axis to the present instant moves it along its profile and changes nothing else. -/
theorem synced_eq : a.synced rec' =
    { a with position := (a.synced rec').position, run := (a.synced rec').run
             direction := (a.synced rec').direction } := by
  unfold synced; cases a.run <;> rfl

@[simp] theorem state_synced : (a.synced rec').state = a.state := (congrArg Axis.state (synced_eq rec' a)).trans rfl
@[simp] theorem homed_synced : (a.synced rec').homed = a.homed := (congrArg Axis.homed (synced_eq rec' a)).trans rfl
@[simp] theorem owner_synced : (a.synced rec').owner = a.owner := (congrArg Axis.owner (synced_eq rec' a)).trans rfl
@[simp] theorem elapsed_synced : (a.synced rec').elapsed = a.elapsed := (congrArg Axis.elapsed (synced_eq rec' a)).trans rfl

/-- The part of the profile a slowing axis is on: one that slows already keeps its course, one at rest stays so. -/
def slowedRun : Option Run :=
  match a.run with
  | none => none
  | some r =>
    match r.kind with
    | .slowing | .turning | .stopping => some { r with kind := .stopping }
    | .speedingUp | .constant =>
      some (.slowFrom rec' .stopping a.direction (.whole a.profileMs) (a.place rec') (a.speed rec'))
    | .resting => some r

/-- Slowing changes the part of the profile alone. -/
theorem slowed_eq : a.slowed rec' = { a with run := a.slowedRun rec' } := by
  have keeps {x : Option Run} (run : a.run = x) : a = { a with run := x } := run ▸ rfl
  unfold slowed slowedRun
  cases run : a.run with
  | none => exact keeps run
  | some r =>
    dsimp only
    cases r.kind
    case resting => exact keeps run
    all_goals rfl

@[simp] theorem target_slowed : (a.slowed rec').target = a.target := by rw [slowed_eq]

theorem atRest_iff : a.atRest rec' = true ↔ (a.speed rec').sign ≤ 0 := decide_eq_true_iff

theorem hasArrived_iff : a.hasArrived rec' = true ↔
    a.state = .moving ∧ a.target = some a.position ∧ (a.speed rec').sign ≤ 0 := by
  simp only [hasArrived, Bool.and_eq_true, beq_iff_eq, atRest_iff, and_assoc]

end Axis

namespace State

/-! ## What the ends of motions ask for -/

section Ends

variable {s : State} {n : Fin 12} {a : Axis}

theorem faultOwner_of_slot {k : Fin 8} (owned : a.owner = .slot k) : faultOwner a = [.stopSlot k .axisFault] := by
  simp only [faultOwner, owned]

theorem faultOwner_of_no_slot (unowned : ∀ k, a.owner ≠ .slot k) : faultOwner a = [] := by
  unfold faultOwner
  split
  · next k owned => exact absurd owned (unowned k)
  · rfl
  · rfl

/-- An effect that stops an owner slot first, by whether a slot owns the axis. -/
theorem asks_of_faultOwner {c : Instr} {u : State} {ts : List Task}
    (h : exec c s = .next (conclude (u, faultOwner a ++ ts))) :
    (∀ k, a.owner = .slot k → Asks c s u (.stopSlot k .axisFault :: ts)) ∧
      ((∀ k, a.owner ≠ .slot k) → Asks c s u ts) := by
  refine ⟨fun k owned => ?_, fun unowned => ?_⟩
  · rw [faultOwner_of_slot owned] at h
    exact h
  · rw [faultOwner_of_no_slot unowned] at h
    exact h

theorem perform_arrive (arrived : (s.syncedAxis n).hasArrived (s.axisRecord n) = true) : perform (.arrive n) s =
    (s.setAxis n { (s.syncedAxis n).ended .done with elapsed := 0 }, [.giveUpAxis n]) := if_pos arrived

/-- A halt has come to rest. -/
def HaltRests (s : State) (n : Fin 12) : Prop :=
  (s.syncedAxis n).state = .halting ∧ ((s.syncedAxis n).speed (s.axisRecord n)).sign ≤ 0

theorem perform_endHalt (rests : s.HaltRests n) : perform (.endHalt n) s =
    match (s.syncedAxis n).pendingMove with
    | some p => (s.setAxis n ((s.syncedAxis n).beginMove (s.axisRecord n) (s.syncedAxis n).owner p s.showTime),
        [.findHome n, .arrive n])
    | none => (s.setAxis n (if (s.syncedAxis n).timedOut then (s.syncedAxis n).failed .timeout
        else (s.syncedAxis n).ended .halted), [.giveUpAxis n]) :=
  if_pos (by simpa [Axis.atRest_iff, HaltRests] using rests)

theorem perform_endHalt_of_pending {p : Nat} (rests : s.HaltRests n) (pending : (s.syncedAxis n).pendingMove = some p) :
    perform (.endHalt n) s = (s.setAxis n
      ((s.syncedAxis n).beginMove (s.axisRecord n) (s.syncedAxis n).owner p s.showTime), [.findHome n, .arrive n]) := by
  rw [perform_endHalt rests, pending]

theorem perform_endHalt_of_none (rests : s.HaltRests n) (none : (s.syncedAxis n).pendingMove = none) :
    perform (.endHalt n) s = (s.setAxis n (if (s.syncedAxis n).timedOut then (s.syncedAxis n).failed .timeout
      else (s.syncedAxis n).ended .halted), [.giveUpAxis n]) := by
  rw [perform_endHalt rests, none]

end Ends

/-! ## The commands of the ends of motions -/

section Commands

variable {s : State} {n : Fin 12}

theorem exec_arrival (released : s.resetLow = false) (arrived : (s.syncedAxis n).hasArrived (s.axisRecord n) = true) :
    exec (.arrival n) s = .next (follow 1 (perform (.arrive n) s)) := by
  rw [← conclude_one]
  show execArrival n s = _
  simp [execArrival, react, isDue, released, arrived]

theorem exec_moveTimeout (released : s.resetLow = false) (moving : (s.axis n).state = .moving)
    (late : (s.axisRecord n).moveTimeLimit ≤ (s.axis n).elapsed) :
    exec (.moveTimeout n) s = .next (conclude (s.timeOutMove n)) := by
  show execMoveTimeout n s = _
  simp [execMoveTimeout, react, isDue, released, moving, late]

theorem exec_haltEnds (released : s.resetLow = false) (rests : s.HaltRests n) :
    exec (.haltEnds n) s = .next (follow 1 (perform (.endHalt n) s)) := by
  obtain ⟨halting, still⟩ := rests
  rw [← conclude_one]
  show execHaltEnds n s = _
  have state : (s.axis n).state = .halting := (Axis.state_synced ..).symm.trans halting
  simp [execHaltEnds, react, isDue, released, state, Axis.atRest_iff, still]

theorem exec_suspendingAtRest (released : s.resetLow = false) (suspending : (s.axis n).state = .suspending)
    (still : ((s.syncedAxis n).speed (s.axisRecord n)).sign ≤ 0) :
    exec (.suspendingAtRest n) s = .next (conclude (s.restSuspended n, [])) := by
  show execSuspendingAtRest n s = _
  simp [execSuspendingAtRest, react, isDue, released, suspending, Axis.atRest_iff, still]

theorem exec_suspendLimit {t : Time} (released : s.resetLow = false) (suspended : (s.axis n).state = .suspended)
    (since : (s.axis n).suspendedSince = some t) (late : 1000 * (s.axisRecord n).suspendLimit ≤
      (s.axis n).suspendedTotal + elapsedSince t s.showTime) :
    exec (.suspendLimit n) s = .next (conclude (s.abandonMotion n)) := by
  show execSuspendLimit n s = _
  simp [execSuspendLimit, react, isDue, released, suspended, Axis.suspendedFor, since, late]

end Commands

/-- Settles O57, one end of a motion after another. -/
theorem motionsEnd : Obligations.MotionsEnd := by
  unfold Obligations.MotionsEnd
  intro s n released rec' a resting home ends
  have state : a.state = (s.axis n).state := Axis.state_synced ..
  have elapsed : a.elapsed = (s.axis n).elapsed := Axis.elapsed_synced ..
  refine ⟨fun moving there still => ?arrives, fun moving late => ?late, fun halting still => ?halts,
    fun suspending still => leaves_of_conclude (exec_suspendingAtRest released (state ▸ suspending) still),
    fun t suspended since late => ?abandoned⟩
  case arrives =>
    have arrived : a.hasArrived rec' = true := (Axis.hasArrived_iff ..).2 ⟨moving, there, still⟩
    rw [exec_arrival released arrived, perform_arrive arrived]
    rfl
  case late =>
    intro b u
    have timedOut := exec_moveTimeout released (state ▸ moving) (elapsed ▸ late)
    exact ⟨Axis.target_slowed .., asks_of_faultOwner timedOut⟩
  case halts =>
    have rests : s.HaltRests n := ⟨halting, still⟩
    rw [exec_haltEnds released rests]
    refine ⟨fun p pending => ?_, fun idle timedOut => ?_, fun idle timedOut => ?_⟩
    · rw [perform_endHalt_of_pending rests pending]
    · rw [perform_endHalt_of_none rests idle, if_pos timedOut]
      rfl
    · rw [perform_endHalt_of_none rests idle, if_neg (Bool.eq_false_iff.1 timedOut)]
      rfl
  case abandoned =>
    have abandoned := exec_suspendLimit released suspended since late
    have homed : a.homed = (s.axis n).homed := Axis.homed_synced ..
    show Asks (.suspendLimit n) s ((s.setAxis n (ends (s.axis n) (if a.homed then .idle else .unhomed) .abandoned)).log
      .suspendLimit _) _
    rw [homed]
    exact abandoned

end State

end Sys2Proof.Machine
end

section
/-! PROOFS: the home switch and the homing limit, owners given up, halts and SAFE at an axis (R153, R160 to R162). A homing
that finds its switch stands at the home position (`Axis.homeFound`); a way to the place an axis is at ends where it begins
(`Axis.synced_of_here`). -/

namespace Sys2Proof.Machine

/-! ## Zero, over whatever denominator

Distances, times and speeds of 0 stay 0 in the arithmetic even where a directory's acceleration is 0. -/

namespace Exact

/-- 0, over any denominator. -/
def IsNull (x : Exact) : Prop := ∃ d, x = .frac 0 d

theorem isNull_whole : IsNull (whole 0) := ⟨1, rfl⟩

theorem isNull_reduced (d : Nat) : IsNull (reduced 0 d) := by
  unfold reduced
  dsimp only
  split
  · exact ⟨d, rfl⟩
  · exact ⟨_, by rw [Int.zero_ediv]⟩

theorem reduced_frac (num : Int) (den : Nat) : ∃ n d, reduced num den = .frac n d := by
  unfold reduced
  dsimp only
  split <;> exact ⟨_, _, rfl⟩

theorem IsNull.plus {x y : Exact} (hx : x.IsNull) (hy : y.IsNull) : (x.plus y).IsNull := by
  obtain ⟨b, rfl⟩ := hx
  obtain ⟨d, rfl⟩ := hy
  simpa [Exact.plus] using isNull_reduced (b * d)

theorem IsNull.scale {x : Exact} (hx : x.IsNull) (num : Int) (den : Nat) : (x.scale num den).IsNull := by
  obtain ⟨b, rfl⟩ := hx
  obtain ⟨n, d, e⟩ := reduced_frac num den
  simpa [Exact.scale, e, times] using isNull_reduced (b * d)

theorem IsNull.minus {x y : Exact} (hx : x.IsNull) (hy : y.IsNull) : (x.minus y).IsNull := by
  refine hx.plus ?_
  obtain ⟨d, rfl⟩ := hy
  simpa [times, whole] using isNull_reduced (1 * d)

theorem IsNull.sign {x : Exact} (hx : x.IsNull) : x.sign = 0 := by
  obtain ⟨b, rfl⟩ := hx
  rfl

theorem IsNull.atMost {x y : Exact} (hx : x.IsNull) (hy : y.IsNull) : x.atMost y = true := by
  simp [Exact.atMost, (hy.minus hx).sign]

theorem IsNull.smaller {x y : Exact} (hx : x.IsNull) (hy : y.IsNull) : (x.smaller y).IsNull := by
  rwa [Exact.smaller, if_pos (hx.atMost hy)]

theorem isNull_minus_self (n : Int) : ((whole n).minus (whole n)).IsNull := by
  have e : (whole n).minus (whole n) = reduced 0 1 := by
    simp [Exact.minus, times, Exact.plus, whole, reduced_one]
  exact e ▸ isNull_reduced 1

end Exact

/-! ## The way to where the axis is (R149) -/

/-- The part of the profile that takes an axis to a place it is at. -/
def Run.here (p : Nat) : Run := .slowTo (.whole 0) (.whole p) (.whole 0) p

theorem Run.toward_here (rec' : AxisRecord) (p : Nat) (dir : Direction) :
    Run.toward rec' p (.whole 0) (.whole p) (.whole 0) dir = (.here p, dir) := by
  have rests : (Exact.whole 0).sign ≤ 0 := Exact.isNull_whole.sign.le
  have there : ((Exact.whole p).minus (.whole p)).sign = 0 := (Exact.isNull_minus_self p).sign
  unfold Run.toward
  rw [if_pos rests]
  dsimp only
  rw [if_pos there]
  rfl

theorem Run.into_here (rec' : AxisRecord) (p : Nat) (dir : Direction) (target : Nat) :
    ((Run.here p).into rec' dir target 0).IsNull := by
  have now : ((Exact.whole 0).minus (Run.here p).since).IsNull := Exact.isNull_minus_self 0
  exact now.smaller (Exact.isNull_whole.scale 1000 rec'.acceleration)

theorem Run.placeAfter_here (rec' : AxisRecord) (p : Nat) (dir : Direction) {dt : Exact} (null : dt.IsNull) :
    (Run.here p).placeAfter rec' dir dt = .whole p :=
  if_pos ((Exact.isNull_whole.scale 1000 rec'.acceleration).atMost null)

theorem Run.speedAfter_here (rec' : AxisRecord) (p : Nat) {dt : Exact} (null : dt.IsNull) :
    (Run.here p).speedAfter rec' dt = .whole 0 :=
  if_pos (Exact.isNull_whole.minus (null.scale _ _)).sign.le

namespace Axis

variable {a : Axis} {rec' : AxisRecord} {p : Nat}

/-- An axis at a place, on its way to it from this instant. -/
structure Here (a : Axis) (p : Nat) : Prop where
  moves : a.state = .moving
  run : a.run = some (.here p)
  begun : a.profileMs = 0
  origin : a.origin = p
  position : a.position = p

theorem Here.dueAt (at' : a.Here p) (inside : p < 65536) : a.dueAt rec' = p := by
  obtain ⟨moves, run, begun, origin, -⟩ := at'
  have travelled : ((Exact.whole p).minus (.whole p)).trunc = 0 := by
    have none := Exact.is_minus (Exact.is_whole p) (Exact.is_whole p)
    rw [sub_self] at none
    simp [Exact.trunc_is none]
  simp only [Axis.dueAt, moves, run, begun, origin, Run.placeAfter_here rec' p _ (Run.into_here ..), travelled, wrapPosition]
  omega

theorem synced_of_here (at' : a.Here p) (inside : p < 65536) : a.synced rec' = a := by
  have due := at'.dueAt (rec' := rec') inside
  obtain ⟨-, run, -, -, position⟩ := at'
  have stays : Run.caughtUp rec' a.aim a.profileMs 8 (.here p, a.direction) = (.here p, a.direction) := rfl
  have same : { a with run := some (Run.here p), position := p } = a := by rw [← run, ← position]
  have ran : { a with run := some (Run.here p) } = a := by rw [← run]
  simp only [synced, run, stays, ran, due]
  exact same

theorem speed_of_here (at' : a.Here p) : a.speed rec' = .whole 0 := by
  obtain ⟨moves, run, begun, -, -⟩ := at'
  simp only [speed, moves, run, begun, Run.speedAfter_here rec' p (Run.into_here ..)]

/-! ## An axis at its home switch (R153) -/

theorem homePosition_eq (rec' : AxisRecord) : homePosition rec' = if homeDirection rec' = .lower then 0 else 65535 := by
  unfold homePosition
  cases homeDirection rec' <;> rfl

theorem homePosition_lt (rec' : AxisRecord) : homePosition rec' < 65536 := by
  rw [homePosition_eq]
  split <;> decide

/-- An axis that has found its switch rests at the home position, which is now known. -/
def homeFound (rec' : AxisRecord) (a : Axis) : Axis :=
  { a with position := homePosition rec', homed := true, elapsed := 0, origin := homePosition rec', profileMs := 0
           run := some (.restAt (.whole (homePosition rec'))) }

/-- The way a pending move takes from the home switch. -/
def wayFromHome (rec' : AxisRecord) (a : Axis) (p : Nat) : Run × Direction :=
  Run.toward rec' p (.whole 0) (.whole (homePosition rec')) (.whole 0) a.direction

/-- An axis that has found its switch takes up its pending move. -/
def movedFromHome (rec' : AxisRecord) (a : Axis) (p : Nat) : Axis :=
  { a.homeFound rec' with
    state := .moving, target := some p, pendingMove := none, resumeTo := none
    run := some (a.wayFromHome rec' p).1, direction := (a.wayFromHome rec' p).2 }

/-- A pending move to the home position is there as it begins. -/
theorem here_movedFromHome : (a.movedFromHome rec' (homePosition rec')).Here (homePosition rec') :=
  ⟨rfl, congrArg (fun q : Run × Direction => some q.1) (Run.toward_here ..), rfl, rfl, rfl⟩

end Axis

namespace State

section Homing

variable {s : State} {n : Fin 12} {p : Nat}

/-- Writing an axis twice leaves the second. -/
theorem setAxis_setAxis (s : State) (n : Fin 12) (x y : Axis) : (s.setAxis n x).setAxis n y = s.setAxis n y := by
  simp only [setAxis, put, Vector.set_set]

theorem syncedAxis_setAxis (s : State) (n : Fin 12) (x : Axis) :
    (s.setAxis n x).syncedAxis n = x.synced (s.axisRecord n) := by
  rw [syncedAxis, axis_setAxis, if_pos rfl]
  rfl

theorem perform_findHome_of_other (other : (s.axis n).state ≠ .homing ∨ s.lines.home.get n = .inactive) :
    perform (.findHome n) s = (s, []) := by
  refine if_neg fun ⟨homing, active⟩ => ?_
  rcases other with stays | inactive
  · exact stays homing
  · cases active.symm.trans inactive

theorem perform_findHome (homing : (s.axis n).state = .homing) (active : s.lines.home.get n = .active) :
    perform (.findHome n) s =
      let t := s.produce (.axisHomed n (s.axis n).owner (homePosition (s.axisRecord n)))
      match (s.axis n).pendingMove with
      | some p => (t.setAxis n ((s.axis n).movedFromHome (s.axisRecord n) p), [.arrive n])
      | none => (t.setAxis n (((s.axis n).homeFound (s.axisRecord n)).ended .done), [.giveUpAxis n]) :=
  if_pos ⟨homing, active⟩

theorem exec_homeSwitchActive (released : s.resetLow = false) (was : s.lines.home.get n = .inactive) :
    exec (.homeSwitchActive n) s = .next (follow 1 (perform (.findHome n) (s.setHomeLine n .active))) := by
  rw [← conclude_one]
  show execHomeSwitchActive n s = _
  simp [execHomeSwitchActive, onLine, released, was]

/-- A homing that finds its switch with no move pending ends there (R153). -/
theorem exec_homeSwitchActive_ends (released : s.resetLow = false) (was : s.lines.home.get n = .inactive)
    (homing : (s.axis n).state = .homing) (idle : (s.axis n).pendingMove = none) : exec (.homeSwitchActive n) s =
      .next (follow 1 (((s.setHomeLine n .active).produce
        (.axisHomed n (s.axis n).owner (homePosition (s.axisRecord n)))).setAxis n
          (((s.axis n).homeFound (s.axisRecord n)).ended .done), [.giveUpAxis n])) := by
  let t := s.setHomeLine n .active
  have pending : (t.axis n).pendingMove = none := idle
  rw [exec_homeSwitchActive released was, perform_findHome (s := t) homing (put_get_same ..), pending]
  rfl

/-- A homing that finds its switch takes up the move that is pending (R153). -/
theorem exec_homeSwitchActive_goesOn (released : s.resetLow = false) (was : s.lines.home.get n = .inactive)
    (homing : (s.axis n).state = .homing) (waits : (s.axis n).pendingMove = some p) : exec (.homeSwitchActive n) s =
      .next (follow 1 (((s.setHomeLine n .active).produce
        (.axisHomed n (s.axis n).owner (homePosition (s.axisRecord n)))).setAxis n
          ((s.axis n).movedFromHome (s.axisRecord n) p), [.arrive n])) := by
  let t := s.setHomeLine n .active
  have pending : (t.axis n).pendingMove = some p := waits
  rw [exec_homeSwitchActive released was, perform_findHome (s := t) homing (put_get_same ..), pending]
  rfl

theorem exec_homeSwitchInactive (released : s.resetLow = false) (was : s.lines.home.get n = .active) :
    exec (.homeSwitchInactive n) s = .next (conclude (s.setHomeLine n .inactive, [])) := by
  show execHomeSwitchInactive n s = _
  simp [execHomeSwitchInactive, onLine, released, was]

theorem failHoming_eq : s.failHoming n =
    ((s.setAxis n ((s.syncedAxis n).failed .timeout)).log .homeNotFound [n.val, (s.axis n).owner.code],
      faultOwner (s.axis n) ++ [.giveUpAxis n]) := by
  have owner : (s.syncedAxis n).owner = (s.axis n).owner := Axis.owner_synced ..
  simp only [failHoming, axisDetail, faultOwner, owner]

theorem exec_homeNotFound (released : s.resetLow = false) (homing : (s.axis n).state = .homing)
    (late : 4 * (s.axisRecord n).moveTimeLimit ≤ (s.axis n).elapsed) :
    exec (.homeNotFound n) s = .next (conclude (s.failHoming n)) := by
  show execHomeNotFound n s = _
  simp [execHomeNotFound, react, isDue, released, homing, late]

/-- A move to where the axis is arrives as it begins (R152). -/
theorem perform_arrive_of_here {b : Axis} (at' : b.Here p) (inside : p < 65536) (aims : b.target = some p) :
    perform (.arrive n) (s.setAxis n b) = (s.setAxis n { b.ended .done with elapsed := 0 }, [.giveUpAxis n]) := by
  have synced : (s.setAxis n b).syncedAxis n = b := (syncedAxis_setAxis ..).trans (Axis.synced_of_here at' inside)
  have rests : (b.speed (s.axisRecord n)).sign ≤ 0 := by
    rw [Axis.speed_of_here at']
    exact Exact.isNull_whole.sign.le
  have arrived : b.hasArrived (s.axisRecord n) = true :=
    (Axis.hasArrived_iff ..).2 ⟨at'.moves, at'.position ▸ aims, rests⟩
  rw [perform_arrive (by rw [synced]; exact arrived), synced, setAxis_setAxis]

end Homing

/-! ## An axis gives up its owner (R162) -/

section Owners

variable {s : State} {n : Fin 12}

theorem axisZone_eq_some_iff {z : Fin 8} : s.axisZone n = some z ↔ (s.axisRecord n).zone = z.val := numbered_eq_some

/-- The slots told of an axis are those whose wait names it, in rising number (log 36). -/
theorem wakeTasks_isAxis : wakeTasks s (Condition.isAxis n) = ((fins 8).filter fun j => match (s.slot j).wait with
    | some ⟨.axis m, _, _⟩ => m == n
    | _ => false).map Task.wakeSlot := by
  refine congrArg (List.map Task.wakeSlot) (List.filter_congr fun j _ => ?_)
  cases (s.slot j).wait with
  | none => rfl
  | some w =>
    obtain ⟨condition, _, _⟩ := w
    cases condition <;> rfl

theorem giveUpAxis_of_nobody (unowned : (s.axis n).owner = .nobody) : perform (.giveUpAxis n) s =
    (s.setAxis n { s.axis n with owner := .nobody }, [.quietTest]) := by
  simp only [perform, giveUpAxis, unowned]

theorem giveUpAxis_of_slot {k : Fin 8} (owned : (s.axis n).owner = .slot k) : perform (.giveUpAxis n) s =
    (s.setAxis n { s.axis n with owner := .nobody },
      wakeTasks s (Condition.isAxis n) ++ [.testWound k, .quietTest]) := by
  simp only [perform, giveUpAxis, owned]

theorem giveUpAxis_of_cue (owned : (s.axis n).owner = .cue) : perform (.giveUpAxis n) s =
    ((s.setAxis n { s.axis n with owner := .nobody }).removeHoming n, [.askScan, .quietTest]) := by
  simp only [perform, giveUpAxis, owned]

/-- What a change of an axis's cue-homing set makes of the zones (R62). -/
theorem zone_mapHoming (s : State) (n : Fin 12) (f : List (Fin 12) → List (Fin 12)) (z : Fin 8) :
    (s.mapHoming n f).zone z =
      if (s.axisRecord n).zone = z.val then { s.zone z with cueHoming := f (s.zone z).cueHoming } else s.zone z :=
  (tabulate_get ..).trans (if_congr axisZone_eq_some_iff rfl rfl)

end Owners

/-! ## Halts and SAFE at an axis (R160, R161) -/

section Halts

variable {s : State} {n : Fin 12}

theorem haltAxis_of_moving (moves : (s.syncedAxis n).state = .moving ∨ (s.syncedAxis n).state = .suspending) :
    perform (.haltAxis n) s = (s.setAxis n ((s.syncedAxis n).halting (s.axisRecord n)), [.endHalt n]) := by
  rcases moves with state | state <;> simp only [perform, haltAxis, state]

theorem haltAxis_of_homing (homes : (s.syncedAxis n).state = .homing ∨ (s.syncedAxis n).state = .suspended) :
    perform (.haltAxis n) s = (s.setAxis n (s.syncedAxis n).haltedAtOnce, [.endHalt n]) := by
  rcases homes with state | state <;> simp only [perform, haltAxis, state]

theorem haltAxis_of_halting (halts : (s.syncedAxis n).state = .halting) :
    perform (.haltAxis n) s = (s.setAxis n { s.syncedAxis n with pendingMove := none }, []) := by
  simp only [perform, haltAxis, halts]

theorem haltAxis_of_rest (rests : (s.syncedAxis n).state = .unhomed ∨ (s.syncedAxis n).state = .idle ∨
    (s.syncedAxis n).state = .faulted) : perform (.haltAxis n) s = (s, []) := by
  rcases rests with state | state | state <;> simp only [perform, haltAxis, state]

theorem safeAxis_of_moving (moves : (s.syncedAxis n).state = .moving ∨ (s.syncedAxis n).state = .suspending) :
    (perform (.safeAxis n) s).1 =
      s.setAxis n { (s.syncedAxis n).halting (s.axisRecord n) with pendingMove := none } := by
  rcases moves with state | state <;> simp only [perform, safeAxis, state]

theorem safeAxis_of_homing (homes : (s.syncedAxis n).state = .homing ∨ (s.syncedAxis n).state = .suspended) :
    (perform (.safeAxis n) s).1 = s.setAxis n ((s.syncedAxis n).ended .halted) := by
  rcases homes with state | state <;> simp only [perform, safeAxis, state] <;> rfl

theorem safeAxis_of_rest (rests : (s.syncedAxis n).state = .halting ∨ (s.syncedAxis n).state = .unhomed ∨
      (s.syncedAxis n).state = .idle ∨ (s.syncedAxis n).state = .faulted) :
    (perform (.safeAxis n) s).1 = s.setAxis n { s.syncedAxis n with pendingMove := none } := by
  rcases rests with state | state | state | state <;> simp only [perform, safeAxis, state]

end Halts

/-- Settles O56: the switch, the homing limit, the owner given up by who it is, halts and SAFE by the axis's state. -/
theorem homingEvents : Obligations.HomingEvents := by
  unfold Obligations.HomingEvents
  intro s n released a rec' at' home found told
  have isHome : homePosition rec' = home := Axis.homePosition_eq rec'
  clear_value home
  subst isHome
  refine ⟨fun was => ⟨fun other => ?other, fun homing idle => ?found, fun p homing pending => ?goesOn⟩,
    fun was => leaves_of_conclude (exec_homeSwitchInactive released was), fun homing late => ?late, ?owner, ?halts⟩
  case other =>
    have moved := exec_homeSwitchActive released was
    rw [perform_findHome_of_other (s := s.setHomeLine n .active) (.inl other)] at moved
    exact leaves_of_follow moved
  case found => exact exec_homeSwitchActive_ends released was homing idle
  case goesOn =>
    refine ⟨a.movedFromHome rec' p, exec_homeSwitchActive_goesOn released was homing pending, rfl, rfl, ?_⟩
    rintro rfl
    exact perform_arrive_of_here (s := told) Axis.here_movedFromHome (Axis.homePosition_lt rec') rfl
  case late =>
    have failed := exec_homeNotFound released homing late
    rw [failHoming_eq] at failed
    exact asks_of_faultOwner failed
  case owner =>
    refine ⟨giveUpAxis_of_nobody, fun k owned => ?_, fun owned => ?_⟩
    · have given := giveUpAxis_of_slot owned
      rw [wakeTasks_isAxis] at given
      exact given
    · rw [giveUpAxis_of_cue owned]
      exact ⟨rfl, rfl, fun z => (congrArg Zone.cueHoming (zone_mapHoming ..)).trans (apply_ite ..)⟩
  case halts =>
    refine ⟨fun moves => ⟨haltAxis_of_moving moves, safeAxis_of_moving moves⟩,
      fun homes => ⟨haltAxis_of_homing homes, safeAxis_of_homing homes⟩, haltAxis_of_halting, haltAxis_of_rest,
      safeAxis_of_rest, rfl, rfl, rfl, tabulate_get ..⟩

end State

end Sys2Proof.Machine
end

section
/-! PROOFS: the HOME AXIS cue (R154, R62): which axes it may take (`mayHome_iff`), and what becomes of an axis it takes
(`Axis.entering_homing_eq`). -/

namespace Sys2Proof.Machine

namespace Axis

/-- A homing a cue begins is under way at once, or suspended at rest where the axis is (R154, R155). -/
theorem entering_homing_eq (rec' : AxisRecord) (a : Axis) (now : Time) : (a.begun .cue).entering rec' .homing now =
    if a.hasReason then
      { a.begun .cue with state := .suspended, resumeTo := some .homing, suspendedSince := some now }
    else { a.begun .cue with state := .homing, resumeTo := none, direction := homeDirection rec' } := rfl

end Axis

namespace State

section HomeAxis

variable {s : State} {c : TakenCue} {n : Fin 12}

/-- The zone of an axis has no owner and is not reserved. -/
def zoneIsFree (s : State) (n : Fin 12) : Bool :=
  (s.axisZone n).any fun z => (s.zone z).owner.isNone && (s.zone z).reservation.isNone

theorem zoneIsFree_iff : s.zoneIsFree n = true ↔
    ∃ z : Fin 8, (s.axisRecord n).zone = z.val ∧ (s.zone z).owner = none ∧ (s.zone z).reservation = none := by
  simp only [zoneIsFree, Option.any_eq_true, axisZone_eq_some_iff, Bool.and_eq_true, Option.isNone_iff_eq_none]

theorem mayHome_eq : s.mayHome n = ((s.axisRecord n).isEnabled &&
    ((s.axis n).state == .unhomed || (s.axis n).state == .idle || (s.axis n).state == .faulted) && s.zoneIsFree n &&
      !((s.axis n).state == .faulted && s.lines.stall.get n == .active)) := by
  unfold mayHome zoneIsFree
  cases s.axisZone n <;> rfl

/-- The axes a HOME AXIS cue may take: at rest, and not held FAULTED by their stall input, in a free zone (R154). -/
theorem mayHome_iff : s.mayHome n = true ↔ (s.axisRecord n).isEnabled = true ∧
    ((s.axis n).state = .unhomed ∨ (s.axis n).state = .idle ∨
      (s.axis n).state = .faulted ∧ s.lines.stall.get n = .inactive) ∧
    ∃ z : Fin 8, (s.axisRecord n).zone = z.val ∧ (s.zone z).owner = none ∧ (s.zone z).reservation = none := by
  have stall : s.lines.stall.get n = .inactive ↔ ¬ s.lines.stall.get n = .active := by
    cases s.lines.stall.get n <;> decide
  rw [mayHome_eq, ← zoneIsFree_iff, stall]
  cases (s.axis n).state
  case faulted => simpa using and_right_comm.trans and_assoc
  all_goals simp

theorem perform_homeByCue (s : State) (n : Fin 12) : perform (.homeByCue n) s =
    ((s.setAxis n (((s.axis n).begun .cue).entering (s.axisRecord n) .homing s.showTime)).addHoming n,
      [.findHome n]) := rfl

/-- An axis a cue homes is in its zone's cue-homing set (R62). -/
theorem mem_cueHoming_addHoming {z : Fin 8} (named : (s.axisRecord n).zone = z.val) :
    n ∈ ((s.addHoming n).zone z).cueHoming := by
  rw [addHoming, zone_mapHoming, if_pos named]
  dsimp only
  split
  · next there => exact List.contains_iff_mem.1 there
  · exact List.mem_append_right _ (List.mem_singleton_self n)

/-! ## The cue for one axis and for all -/

theorem cueHomeAxis_one (named : paramByte c.params 4 = n.val) : s.cueHomeAxis c = s.cueHomeOne c n := by
  have one : axisParam c.params = some (.one n) := by
    rw [axisParam, if_neg (by omega), numbered_eq_some.2 named]
    rfl
  rw [cueHomeAxis, one]

theorem cueHomeAxis_all (all : paramByte c.params 4 = 0xFF) : s.cueHomeAxis c = s.cueHomeAll c := by
  rw [cueHomeAxis, axisParam, if_pos all]

theorem cueHomeOne_of_disabled (disabled : (s.axisRecord n).isEnabled = false) : s.cueHomeOne c n = s.refuse c .range :=
  if_pos (by simp [disabled])

theorem cueHomeOne_of_enabled (enabled : (s.axisRecord n).isEnabled = true) : s.cueHomeOne c n =
    if s.ctl.state ≠ .run then s.refuse c .wrongState
    else if s.mayHome n then (s.answer c .accepted, [.homeByCue n]) else s.refuse c .busy :=
  if_neg (by simp [enabled])

theorem cueHomeOne_of_stopped (enabled : (s.axisRecord n).isEnabled = true) (stopped : s.ctl.state ≠ .run) :
    s.cueHomeOne c n = s.refuse c .wrongState := (cueHomeOne_of_enabled enabled).trans (if_pos stopped)

theorem cueHomeOne_of_run (enabled : (s.axisRecord n).isEnabled = true) (runs : s.ctl.state = .run) :
    s.cueHomeOne c n = if s.mayHome n then (s.answer c .accepted, [.homeByCue n]) else s.refuse c .busy :=
  (cueHomeOne_of_enabled enabled).trans (if_neg (not_not.2 runs))

theorem cueHomeAll_of_stopped (stopped : s.ctl.state ≠ .run) : s.cueHomeAll c = s.refuse c .wrongState :=
  if_pos stopped

/-- The axes taken are those that may be at the take (log 14); their number is the answer. -/
theorem cueHomeAll_of_run (runs : s.ctl.state = .run) : s.cueHomeAll c =
    (let chosen := (fins 12).filter s.mayHome
     let t := s.answer c .accepted (BitVec.ofNat 32 chosen.length)
     ({ t with req := { t.req with underWay := true } }, chosen.map .homeByCue ++ [.endHoming])) :=
  if_neg (not_not.2 runs)

end HomeAxis

/-- Settles O36: which axes may be homed, one axis by the checks in their order, then all. -/
theorem homeAxisHomes : Obligations.HomeAxisHomes := by
  unfold Obligations.HomeAxisHomes
  intro s c rest head may
  have ready (n : Fin 12) : s.mayHome n = true ↔ may n := mayHome_iff
  have taken : exec .homeAxis s = .next (conclude ((s.consumed rest).cueHomeAxis c)) := exec_of_headIs head
  refine ⟨ready, fun n named => ?one, fun all => ?all⟩
  case one =>
    rw [cueHomeAxis_one named] at taken
    refine ⟨fun disabled => ?_, fun enabled stopped => ?_, fun enabled runs busy => ?_, fun runs allowed => ?_⟩
    · rw [cueHomeOne_of_disabled (s := s.consumed rest) disabled] at taken
      exact leaves_of_conclude taken
    · rw [cueHomeOne_of_stopped (s := s.consumed rest) enabled stopped] at taken
      exact leaves_of_conclude taken
    · have barred : ¬ (s.consumed rest).mayHome n = true := mt (ready n).1 busy
      rw [cueHomeOne_of_run (s := s.consumed rest) enabled runs, if_neg barred] at taken
      exact leaves_of_conclude taken
    · intro a homing suspended u
      have mayHome : (s.consumed rest).mayHome n = true := (ready n).2 allowed
      rw [cueHomeOne_of_run (s := s.consumed rest) allowed.1 runs, if_pos mayHome, conclude_one, perform_homeByCue,
        Axis.entering_homing_eq] at taken
      have begins : exec .homeAxis s = .next (follow 1 (u, [.findHome n])) := taken
      have axis : u.axis n = if a.hasReason then suspended else homing := put_get_same ..
      refine ⟨begins, fun rests => leaves_of_follow_idle (by decide) begins (perform_findHome_of_other ?_),
        fun z named => mem_cueHoming_addHoming named⟩
      refine rests.symm.imp (fun reason => ?_) id
      rw [axis, if_pos reason]
      exact fun stays => nomatch stays
  case all =>
    rw [cueHomeAxis_all all] at taken
    refine ⟨fun stopped => ?_, fun runs => ?_⟩
    · rw [cueHomeAll_of_stopped (s := s.consumed rest) stopped] at taken
      exact leaves_of_conclude taken
    · rw [cueHomeAll_of_run (s := s.consumed rest) runs] at taken
      exact taken

end State

end Sys2Proof.Machine
end

section
/-! PROOFS: the motion profile in numbers (R149): travel as the integral of speed (`travelIsTheIntegral`), the ends of the parts
and what follows them (`partsEnd`), the way taken to a target (`wayIsTaken`) and the steps given (`wholeStepsAreGiven`). -/

namespace Sys2Proof.Machine

namespace Exact

theorem Is.of_eq {x : Exact} {p q : ℚ} (h : x.Is p) (e : p = q) : x.Is q := e ▸ h

theorem is_nat (n : Nat) : (whole n).Is n := (is_whole n).of_eq (Int.cast_natCast n)

theorem is_zero : (whole 0).Is 0 := (is_whole 0).of_eq Int.cast_zero

/-! ## Whole numbers stay whole -/

theorem reduced_eq_whole {n k : Int} {d : Nat} (hd : 0 < d) (is : (reduced n d).Is k) : reduced n d = whole k := by
  refine reduced_of_whole hd ?_
  have ratio : (n : ℚ) / d = k := is_unique (is_reduced n hd) is
  have cast : (n : ℚ) = ((k * d : Int) : ℚ) := by
    rw [div_eq_iff (by positivity)] at ratio
    push_cast
    exact ratio
  exact_mod_cast cast

theorem plus_eq_whole {x y : Exact} {p q : Int} (hx : x.Is p) (hy : y.Is q) : x.plus y = whole (p + q) := by
  have sum := is_plus hx hy
  obtain ⟨a, b, rfl, hb, -⟩ := hx
  obtain ⟨c, d, rfl, hd, -⟩ := hy
  exact reduced_eq_whole (Nat.mul_pos hb hd) (sum.of_eq (by push_cast; rfl))

theorem times_eq_whole {x y : Exact} {p q : Int} (hx : x.Is p) (hy : y.Is q) : x.times y = whole (p * q) := by
  have product := is_times hx hy
  obtain ⟨a, b, rfl, hb, -⟩ := hx
  obtain ⟨c, d, rfl, hd, -⟩ := hy
  exact reduced_eq_whole (Nat.mul_pos hb hd) (product.of_eq (by push_cast; rfl))

theorem scale_half (n : Int) : (whole n).scale 1 2 = if n % 2 = 0 then .frac (n / 2) 1 else .frac n 2 := by
  rw [← reduced_two]
  simp [scale, times, whole, reduced_two 1]

/-- A whole number compared with the root of half a whole number. -/
theorem whole_atMost_root_half {m : Nat} {n : Int} (least : 1 ≤ m) (most : m ≤ 65535) :
    (whole m).atMost ((whole n).scale 1 2).squareRoot = true ↔ (m : ℚ) ^ 2 ≤ n / 2 := by
  have clear : (m : ℚ) ^ 2 ≤ n / 2 ↔ 2 * ((m : Int) * m) ≤ n := by
    rw [le_div_iff₀ two_pos]
    constructor
    · intro h
      have : ((2 * ((m : Int) * m) : Int) : ℚ) ≤ (n : Int) := by push_cast; linarith
      exact_mod_cast this
    · intro h
      have : ((2 * ((m : Int) * m) : Int) : ℚ) ≤ (n : Int) := by exact_mod_cast h
      push_cast at this
      linarith
  rw [scale_half, clear]
  by_cases even : n % 2 = 0
  · rw [if_pos even, whole_atMost_squareRoot least most (.inl rfl)]
    generalize (m : Int) * m = x
    omega
  · rw [if_neg even, whole_atMost_squareRoot least most (.inr ⟨rfl, by omega⟩)]
    generalize (m : Int) * m = x
    omega

end Exact

open Exact

/-! ## Travel over a part (R149) -/

/-- Does a part of this kind slow to rest? -/
def RunKind.Slows (k : RunKind) : Prop := k = .slowing ∨ k = .turning ∨ k = .stopping

section Travel

variable {rec' : AxisRecord} {r : Run} {dir : Direction} {dt : Exact} {v p t : ℚ}

theorem gained_is (time : dt.Is t) : (dt.scale rec'.acceleration 1000).Is (rec'.acceleration * t / 1000) :=
  (is_scale time _ (by decide)).of_eq (by push_cast; ring)

theorem steady_is {x : Exact} (speed : x.Is v) (time : dt.Is t) : ((x.times dt).scale 1 1000).Is (v * t / 1000) :=
  (is_scale (is_times speed time) _ (by decide)).of_eq (by push_cast; ring)

theorem curve_is (time : dt.Is t) : ((dt.square).scale rec'.acceleration 2000000).Is (rec'.acceleration * t ^ 2 / 2000000) :=
  (is_scale (is_square time) _ (by decide)).of_eq (by push_cast; ring)

theorem speedAfter_speedingUp (kind : r.kind = .speedingUp) (speed : r.speed.Is v) (time : dt.Is t) :
    (r.speedAfter rec' dt).Is (v + rec'.acceleration * t / 1000) := by
  simp only [Run.speedAfter, kind]
  exact is_plus speed (gained_is time)

theorem placeAfter_speedingUp (kind : r.kind = .speedingUp) (speed : r.speed.Is v) (place : r.place.Is p)
    (time : dt.Is t) : (r.placeAfter rec' dir dt).Is
      (p + dir.side * (v * t / 1000 + rec'.acceleration * t ^ 2 / 2000000)) := by
  simp only [Run.placeAfter, kind]
  exact alongside_is dir place (is_plus (steady_is speed time) (curve_is time))

theorem placeAfter_constant (kind : r.kind = .constant) (speed : r.speed.Is v) (place : r.place.Is p) (time : dt.Is t) :
    (r.placeAfter rec' dir dt).Is (p + dir.side * (v * t / 1000)) := by
  simp only [Run.placeAfter, kind]
  exact alongside_is dir place (steady_is speed time)

theorem speedAfter_slows (slows : r.kind.Slows) : r.speedAfter rec' dt =
    if (r.speed.minus (dt.scale rec'.acceleration 1000)).sign ≤ 0 then .whole 0
    else r.speed.minus (dt.scale rec'.acceleration 1000) := by
  rcases slows with kind | kind | kind <;> simp only [Run.speedAfter, kind]

theorem placeAfter_slows (slows : r.kind.Slows) : r.placeAfter rec' dir dt =
    if (stoppingTime rec' r.speed).atMost dt then r.rest
    else alongside dir r.place
      (((r.speed.times dt).scale 1 1000).minus ((dt.square).scale rec'.acceleration 2000000)) := by
  rcases slows with kind | kind | kind <;> simp only [Run.placeAfter, kind]

/-- A part that slows is at rest once the acceleration has used its speed up. -/
theorem sign_slowed (speed : r.speed.Is v) (time : dt.Is t) :
    (r.speed.minus (dt.scale rec'.acceleration 1000)).sign ≤ 0 ↔ 1000 * v ≤ rec'.acceleration * t := by
  rw [← not_lt, sign_pos (is_minus speed (gained_is time)), not_lt]
  constructor <;> intro h <;> linarith

theorem stoppingTime_atMost (accelerates : 0 < rec'.acceleration) (speed : r.speed.Is v) (time : dt.Is t) :
    (stoppingTime rec' r.speed).atMost dt = true ↔ 1000 * v ≤ rec'.acceleration * t := by
  have a0 : (0 : ℚ) < rec'.acceleration := by exact_mod_cast accelerates
  rw [atMost_iff (stoppingTime_is accelerates speed) time, div_le_iff₀ a0, mul_comm t]

theorem travelIsTheIntegral (accelerates : 0 < rec'.acceleration) : TravelIsTheIntegral rec' := by
  intro r dir dt v p t speed place time a slows
  refine ⟨fun kind => ⟨speedAfter_speedingUp kind speed time, placeAfter_speedingUp kind speed place time⟩,
    fun kind => ⟨?_, placeAfter_constant kind speed place time⟩, fun slows early => ?_, fun slows late => ?_,
    fun kind => ?_⟩
  · simpa only [Run.speedAfter, kind] using speed
  · rw [speedAfter_slows slows, placeAfter_slows slows, if_neg (mt (sign_slowed speed time).1 (not_le.2 early)),
      if_neg (mt (stoppingTime_atMost accelerates speed time).1 (not_le.2 early))]
    exact ⟨is_minus speed (gained_is time),
      alongside_is dir place (is_minus (steady_is speed time) (curve_is time))⟩
  · rw [speedAfter_slows slows, placeAfter_slows slows, if_pos ((sign_slowed speed time).2 late),
      if_pos ((stoppingTime_atMost accelerates speed time).2 late)]
    exact ⟨is_zero, rfl⟩
  · simp only [Run.speedAfter, Run.placeAfter, kind]
    exact ⟨is_zero, trivial⟩

end Travel

/-! ## The ends of the parts (R149) -/

section Parts

variable {rec' : AxisRecord} {r : Run} {dir : Direction} {target : Nat} {v p w u : ℚ}

/-- The speed at the top of a ramp. -/
def Run.top (rec' : AxisRecord) (r : Run) (dir : Direction) (target : Nat) : Exact :=
  if reachesMaximum rec' r dir target then .whole rec'.maxSpeed else peakSpeed rec' r dir target

theorem duration_speedingUp (accelerates : 0 < rec'.acceleration) (kind : r.kind = .speedingUp) (speed : r.speed.Is v)
    (top : (r.top rec' dir target).Is u) : (r.duration rec' dir target).Is (1000 * (u - v) / rec'.acceleration) := by
  simp only [Run.duration, kind]
  exact (is_scale (is_minus top speed) 1000 accelerates).of_eq (by push_cast; ring)

/-- Over a ramp from speed `v` to speed `u` the travel is (u² - v²) ÷ (2 × acceleration). -/
theorem placeAfter_ramp (accelerates : 0 < rec'.acceleration) (kind : r.kind = .speedingUp) (speed : r.speed.Is v)
    (place : r.place.Is p) (top : (r.top rec' dir target).Is u) :
    (r.placeAfter rec' dir (r.duration rec' dir target)).Is
      (p + dir.side * ((u ^ 2 - v ^ 2) / (2 * rec'.acceleration))) := by
  have a0 : (rec'.acceleration : ℚ) ≠ 0 := by positivity
  refine (placeAfter_speedingUp kind speed place (duration_speedingUp accelerates kind speed top)).of_eq ?_
  field_simp
  ring

theorem following_speedingUp (kind : r.kind = .speedingUp) : r.following rec' dir target =
    if reachesMaximum rec' r dir target then
      (⟨.constant, r.ending rec' dir target, r.placeAfter rec' dir (r.duration rec' dir target),
        .whole rec'.maxSpeed, .whole 0⟩, dir)
    else (.slowTo (r.ending rec' dir target) (r.placeAfter rec' dir (r.duration rec' dir target))
      (peakSpeed rec' r dir target) target, dir) := by
  simp only [Run.following, kind]
  rfl

theorem following_constant (kind : r.kind = .constant) : r.following rec' dir target =
    (.slowTo (r.ending rec' dir target) (r.placeAfter rec' dir (r.duration rec' dir target)) r.speed target, dir) := by
  simp only [Run.following, kind]
  rfl

theorem following_turning (kind : r.kind = .turning) : r.following rec' dir target =
    (⟨.speedingUp, r.ending rec' dir target, r.rest, .whole 0, .whole 0⟩, dir.opposite) := by
  simp only [Run.following, kind]
  rfl

theorem duration_constant (moves : 0 < rec'.maxSpeed) (accelerates : 0 < rec'.acceleration) (kind : r.kind = .constant)
    (speed : r.speed.Is v) (place : r.place.Is p) : (r.duration rec' dir target).Is
      (1000 * (dir.side * (target - p) - v ^ 2 / (2 * rec'.acceleration)) / rec'.maxSpeed) := by
  simp only [Run.duration, kind]
  have rest := is_minus (distanceLeft_is dir place target) (stoppingDistance_is accelerates speed)
  exact (is_scale rest 1000 moves).of_eq (by push_cast; ring)

theorem duration_slows (accelerates : 0 < rec'.acceleration) (slows : r.kind.Slows) (speed : r.speed.Is v) :
    (r.duration rec' dir target).Is (1000 * v / rec'.acceleration) := by
  have time := stoppingTime_is accelerates speed
  rcases slows with kind | kind | kind <;> simpa only [Run.duration, kind] using time

/-- The part at maximum speed ends v² ÷ (2 × acceleration) short of the target. -/
theorem placeAfter_cruise (moves : 0 < rec'.maxSpeed) (accelerates : 0 < rec'.acceleration) (kind : r.kind = .constant)
    (speed : r.speed.Is rec'.maxSpeed) (place : r.place.Is p) :
    (r.placeAfter rec' dir (r.duration rec' dir target)).Is
      (target - dir.side * ((rec'.maxSpeed : ℚ) ^ 2 / (2 * rec'.acceleration))) := by
  have m0 : (rec'.maxSpeed : ℚ) ≠ 0 := by positivity
  refine (placeAfter_constant kind speed place (duration_constant moves accelerates kind speed place)).of_eq ?_
  have whole (x : ℚ) : rec'.maxSpeed * (1000 * x / rec'.maxSpeed) / 1000 = x := by field_simp
  rw [whole, mul_sub, ← mul_assoc, side_mul_side]
  ring

theorem peakSpeed_eq (speed : r.speed.Is v) (place : r.place.Is p) : ∃ x : Exact,
    x.Is (v ^ 2 / 2 + rec'.acceleration * (dir.side * (target - p))) ∧ peakSpeed rec' r dir target = x.squareRoot := by
  have left := is_scale (distanceLeft_is dir place target) (2 * rec'.acceleration) one_pos
  refine ⟨_, (is_scale (is_plus (is_square speed) left) 1 two_pos).of_eq ?_, rfl⟩
  push_cast
  ring

/-- From a whole speed and place a ramp reaches the maximum speed exactly where it has room for it. -/
theorem reachesMaximum_iff {n k : Nat} (moves : 1 ≤ rec'.maxSpeed) (bounded : rec'.maxSpeed ≤ 65535)
    (speed : r.speed.Is n) (place : r.place.Is k) : reachesMaximum rec' r dir target = true ↔
      (rec'.maxSpeed : ℚ) ^ 2 ≤ (n : ℚ) ^ 2 / 2 + rec'.acceleration * (dir.side * (target - k)) := by
  have square : r.speed.square = whole (n * n) := times_eq_whole (speed.of_eq (by simp)) (speed.of_eq (by simp))
  have left : distanceLeft dir r.place target = whole ((target - k) * dir.sign) :=
    times_eq_whole ((is_minus (is_nat target) place).of_eq (by push_cast; rfl)) (is_whole _)
  have scaled : (whole ((target - k) * dir.sign)).scale (2 * rec'.acceleration) 1 =
      whole ((target - k) * dir.sign * (2 * rec'.acceleration)) :=
    times_eq_whole (is_whole _) ((is_reduced _ one_pos).of_eq (by simp))
  have sum : (whole ((n : Int) * n)).plus (whole ((target - k) * dir.sign * (2 * rec'.acceleration))) =
      whole (n * n + (target - k) * dir.sign * (2 * rec'.acceleration)) := plus_eq_whole (is_whole _) (is_whole _)
  have side : ((dir.sign : Int) : ℚ) = dir.side := by cases dir <;> simp [Direction.sign, Direction.side]
  rw [reachesMaximum, peakSpeed, square, left, scaled, sum, whole_atMost_root_half moves bounded]
  push_cast
  rw [side]
  have same : ((n : ℚ) * n + (target - k) * dir.side * (2 * rec'.acceleration)) / 2 =
      (n : ℚ) ^ 2 / 2 + rec'.acceleration * (dir.side * (target - k)) := by ring
  rw [same]

theorem partsEnd (accelerates : 0 < rec'.acceleration) (moves : 1 ≤ rec'.maxSpeed) (bounded : rec'.maxSpeed ≤ 65535) :
    PartsEnd rec' := by
  intro r dir target v p w speed place since a m left next
  refine ⟨fun kind reaches => ?maximum, fun kind short => ?peak, fun kind full => ?cruise, fun slows => ?slows,
    fun kind => ?turns, fun n k whole at' => ?reaches⟩
  case maximum =>
    have top : (r.top rec' dir target).Is m := by
      rw [Run.top, if_pos reaches]
      exact is_nat _
    have follows : next = _ := (following_speedingUp kind).trans (if_pos reaches)
    rw [follows]
    exact ⟨is_plus since (duration_speedingUp accelerates kind speed top), rfl, rfl, is_nat _,
      placeAfter_ramp accelerates kind speed place top⟩
  case peak =>
    have below : ¬ reachesMaximum rec' r dir target = true := Bool.eq_false_iff.1 short
    have follows : next = _ := (following_speedingUp kind).trans (if_neg below)
    rw [follows]
    refine ⟨rfl, rfl, rfl, peakSpeed_eq speed place, fun u peak => ?_⟩
    have top : (r.top rec' dir target).Is u := by
      rw [Run.top, if_neg below]
      exact peak
    exact ⟨is_plus since (duration_speedingUp accelerates kind speed top),
      placeAfter_ramp accelerates kind speed place top⟩
  case cruise =>
    subst full
    have follows : next = _ := following_constant kind
    rw [follows]
    exact ⟨is_plus since (duration_constant moves accelerates kind speed place), rfl, rfl, speed,
      placeAfter_cruise moves accelerates kind speed place, rfl⟩
  case slows => exact is_plus since (duration_slows accelerates slows speed)
  case turns =>
    have follows : next = _ := following_turning kind
    rw [follows]
    exact ⟨rfl, rfl, is_zero, rfl⟩
  case reaches =>
    subst whole at'
    exact reachesMaximum_iff moves bounded speed place

end Parts

/-! ## The way to a target (R149) -/

section Way

variable {rec' : AxisRecord} {dir : Direction} {target : Nat} {now place speed : Exact} {v p : ℚ}

theorem toward_of_rest (rests : speed.Is 0) (at' : place.Is p) : Run.toward rec' target now place speed dir =
    if p = target then (.slowTo now place (.whole 0) target, dir)
    else (⟨.speedingUp, now, place, .whole 0, .whole 0⟩, if target < p then .lower else .higher) := by
  have ahead := is_minus (is_nat target) at'
  have there : ((whole target).minus place).sign = 0 ↔ p = target := by
    rw [sign_zero ahead, sub_eq_zero, eq_comm]
  have behind : ((whole target).minus place).sign < 0 ↔ (target : ℚ) < p := by rw [sign_neg ahead, sub_neg]
  unfold Run.toward
  rw [if_pos ((sign_zero rests).2 rfl).le]
  simp only [there, behind]

/-- The steps to spare: those left to the target, less those the axis needs to stop. -/
def spare (rec' : AxisRecord) (dir : Direction) (target : Nat) (p v : ℚ) : ℚ :=
  dir.side * (target - p) - v ^ 2 / (2 * rec'.acceleration)

theorem toward_of_speed (accelerates : 0 < rec'.acceleration) (moves : 0 < v) (is : speed.Is v) (at' : place.Is p) :
    Run.toward rec' target now place speed dir =
      if spare rec' dir target p v < 0 then (.slowFrom rec' .turning dir now place speed, dir)
      else if spare rec' dir target p v = 0 then (.slowTo now place speed target, dir)
      else if rec'.maxSpeed ≤ v then (⟨.constant, now, place, .whole rec'.maxSpeed, .whole 0⟩, dir)
      else (⟨.speedingUp, now, place, speed, .whole 0⟩, dir) := by
  have spares : ((distanceLeft dir place target).minus (stoppingDistance rec' speed)).Is (spare rec' dir target p v) :=
    is_minus (distanceLeft_is dir at' target) (stoppingDistance_is accelerates is)
  unfold Run.toward
  rw [if_neg (not_le.2 ((sign_pos is).2 moves))]
  simp only [sign_neg spares, sign_zero spares, atMost_iff (is_nat rec'.maxSpeed) is]

/-- A part that slows for another reason than the target rests where the acceleration leaves it. -/
theorem slowFrom_rest (accelerates : 0 < rec'.acceleration) (is : speed.Is v) (at' : place.Is p) (kind : RunKind) :
    (Run.slowFrom rec' kind dir now place speed).rest.Is (p + dir.side * (v ^ 2 / (2 * rec'.acceleration))) :=
  alongside_is dir at' (stoppingDistance_is accelerates is)

/-- The way begins here and now, at the speed the axis has, or at the maximum where that is less. -/
theorem toward_begins (accelerates : 0 < rec'.acceleration) (is : speed.Is v) (at' : place.Is p) (forth : 0 ≤ v) :
    let q := Run.toward rec' target now place speed dir
    q.1.since = now ∧ q.1.place = place ∧ (q.1.speed.Is v ∨ rec'.maxSpeed < v) := by
  rcases forth.eq_or_lt with rfl | moves
  · rw [toward_of_rest is at']
    split <;> exact ⟨rfl, rfl, .inl is_zero⟩
  · rw [toward_of_speed accelerates moves is at']
    split_ifs with behind exact' fast
    · exact ⟨rfl, rfl, .inl is⟩
    · exact ⟨rfl, rfl, .inl is⟩
    · exact ⟨rfl, rfl, fast.eq_or_lt.imp_left fun e => (is_nat _).of_eq e⟩
    · exact ⟨rfl, rfl, .inl is⟩

theorem wayIsTaken (accelerates : 0 < rec'.acceleration) : WayIsTaken rec' := by
  intro target now place speed dir v p is at' forth a left q
  obtain ⟨since, begins, pace⟩ := toward_begins (target := target) (now := now) (dir := dir) accelerates is at' forth
  refine ⟨since, begins, pace, fun rests here => ?here, fun rests ahead => ?ahead, fun rests behind => ?behind,
    fun moves => ?moves, fun kind => ⟨_, rfl, slowFrom_rest (now := now) accelerates is at' kind⟩⟩
  case here =>
    have way : q = _ := (toward_of_rest (rests ▸ is) at').trans (if_pos here)
    rw [way]
    exact ⟨rfl, rfl⟩
  case ahead =>
    have way : q = _ := (toward_of_rest (rests ▸ is) at').trans (if_neg ahead.ne)
    rw [way, if_neg ahead.not_gt]
    exact ⟨rfl, rfl⟩
  case behind =>
    have way : q = _ := (toward_of_rest (rests ▸ is) at').trans (if_neg behind.ne')
    rw [way, if_pos behind]
    exact ⟨rfl, rfl⟩
  case moves =>
    have way : q = _ := toward_of_speed accelerates moves is at'
    have none : spare rec' dir target p v = left - v ^ 2 / (2 * a) := rfl
    refine ⟨?_, fun short => ?_, fun exact' => ?_, fun room fast => ?_, fun room slow => ?_⟩
    · rw [way]
      split_ifs <;> rfl
    · rw [way, if_pos (by rw [none]; linarith)]
      exact ⟨rfl, slowFrom_rest accelerates is at' _⟩
    · rw [way, if_neg (by rw [none]; linarith), if_pos (by rw [none]; linarith)]
      exact ⟨rfl, rfl⟩
    · rw [way, if_neg (by rw [none]; linarith), if_neg (by rw [none]; linarith), if_pos fast]
      exact ⟨rfl, is_nat _⟩
    · rw [way, if_neg (by rw [none]; linarith), if_neg (by rw [none]; linarith), if_neg (not_le.2 slow)]

end Way

/-! ## The steps given (R148, R149, log 10) -/

section Steps

variable {rec' : AxisRecord} {x : Axis} {q : ℚ}

theorem trunc_of_forward {y : Exact} {k : Nat} (is : y.Is q) (least : k ≤ q) (most : q < k + 1) : y.trunc = k := by
  have forth : ¬ q < 0 := not_lt.2 (le_trans (Nat.cast_nonneg k) least)
  rw [trunc_is is, if_neg forth, Int.floor_eq_iff]
  exact ⟨by exact_mod_cast least, by exact_mod_cast most⟩

theorem trunc_of_backward {y : Exact} {k : Nat} (is : y.Is q) (most : q ≤ -k) (least : -(k : ℚ) - 1 < q) :
    y.trunc = -k := by
  rw [trunc_is is]
  split_ifs with back
  · rw [neg_inj, Int.floor_eq_iff]
    exact ⟨by push_cast; linarith, by push_cast; linarith⟩
  · have none : (k : ℚ) = 0 := by
      have := Nat.cast_nonneg (α := ℚ) k
      linarith
    have here : q = 0 := by linarith
    have zero : k = 0 := by exact_mod_cast none
    simp [here, zero]

theorem dueAt_of_run {r : Run} (moves : x.state ≠ .homing) (runs : x.run = some r) : x.dueAt rec' =
    wrapPosition ((x.origin : Int) + ((x.place rec').minus (.whole x.origin)).trunc) := by
  unfold Axis.dueAt Axis.place
  split
  · next homing => exact absurd homing moves
  · simp only [runs]

theorem wholeStepsAreGiven : WholeStepsAreGiven rec' := by
  intro x
  refine ⟨fun homing => ?homing, fun r q moves runs place k => ?moves⟩
  case homing =>
    intro speed steps
    have pace : x.speed rec' = .whole speed := by
      simp only [Axis.speed, homing]
      rfl
    have due : x.dueAt rec' = wrapPosition ((x.origin : Int) + x.direction.sign * steps) := by
      simp only [Axis.dueAt, homing]
      rfl
    refine ⟨pace, due.trans ?_⟩
    unfold wrapPosition
    cases x.direction
    · exact congrArg (fun y : Int => (y % 65536).toNat) (by simp only [Direction.sign]; ring)
    · simp only [Direction.sign]
      omega
  case moves =>
    have travelled := is_minus place (is_nat x.origin)
    rw [dueAt_of_run moves runs]
    refine ⟨fun least most => ?_, fun most least => ?_⟩
    · rw [trunc_of_forward (k := k) travelled (by linarith) (by linarith), wrapPosition]
      omega
    · rw [trunc_of_backward (k := k) travelled (by linarith) (by linarith), wrapPosition]
      rfl

end Steps

/-- The ramp is R149's for every record a directory may give (R30). -/
theorem rampNumbers (rec' : AxisRecord) : RampNumbers rec' := by
  intro slowest _ moves fastest
  have accelerates : 0 < rec'.acceleration := by omega
  exact ⟨travelIsTheIntegral accelerates, partsEnd accelerates moves (by omega), wayIsTaken accelerates,
    wholeStepsAreGiven⟩

end Sys2Proof.Machine
end

section
/-! PROOFS: stalls, the instants of the profile, step pulses, suspend reasons (R148, R149, R155, R156, R158, R159, R164, R181).
What a reason that joins or leaves makes of an axis by its state is `Axis.reasoned_of_moving` to `Axis.relieved_to_moving`. -/

namespace Sys2Proof.Machine

/-! ## What a suspend reason makes of an axis (R155, R156) -/

namespace Axis

variable {rec' : AxisRecord} {a : Axis} {r : SuspendReason} {now : Time}

/-- The reason that is not the one named. -/
def otherReason (a : Axis) : SuspendReason → Bool
  | .guard => a.holdReason
  | .hold => a.guardReason

theorem hasReason_withReason : (a.withReason r false).hasReason = a.otherReason r := by
  cases r
  · rfl
  · exact Bool.or_false _

/-- Off the homing run the speed is that of the part of the profile. -/
theorem speed_of_same {b : Axis} (moves : a.state ≠ .homing) (goes : b.state ≠ .homing) (run : b.run = a.run)
    (direction : b.direction = a.direction) (target : b.target = a.target) (began : b.profileMs = a.profileMs) :
    b.speed rec' = a.speed rec' := by
  have pace {c : Axis} (on : c.state ≠ .homing) : c.speed rec' = match c.run with
      | none => .whole 0
      | some r => r.speedAfter rec' (r.into rec' c.direction c.aim c.profileMs) := by
    unfold speed
    split
    · next homing => exact absurd homing on
    · rfl
  have aim : b.aim = a.aim := congrArg (Option.getD · 0) target
  rw [pace goes, pace moves, run, direction, aim, began]

/-- A MOVING axis with a reason added, on its way to rest. -/
def slowingFor (rec' : AxisRecord) (a : Axis) (r : SuspendReason) : Axis :=
  { a.withReason r true with state := .suspending, resumeTo := some .moving, run := a.slowedRun rec' }

theorem slowed_withReason :
    { (a.withReason r true).slowed rec' with state := .suspending, resumeTo := some .moving } =
      a.slowingFor rec' r := by
  rw [slowed_eq]
  cases r <;> rfl

theorem speed_slowingFor (moves : a.state = .moving) :
    (a.slowingFor rec' r).speed rec' = (a.slowed rec').speed rec' := by
  rw [slowed_eq]
  refine speed_of_same (fun homing => nomatch moves.symm.trans homing) (fun homing => nomatch homing) rfl ?_ ?_ ?_ <;>
    cases r <;> rfl

theorem place_slowingFor : (a.slowingFor rec' r).place rec' = (a.slowed rec').place rec' := by
  rw [slowed_eq]
  cases r <;> rfl

theorem state_withReason (present : Bool) : (a.withReason r present).state = a.state := by cases r <;> rfl

theorem reasoned_of_moving (moves : a.state = .moving) : a.reasoned rec' r now =
    if ((a.slowed rec').speed rec').sign ≤ 0 then
      { a.slowingFor rec' r with
        state := .suspended, suspendedSince := some now, run := some (.restAt ((a.slowed rec').place rec')) }
    else a.slowingFor rec' r := by
  have state : (a.withReason r true).state = .moving := (state_withReason true).trans moves
  simp only [reasoned, state, slowed_withReason, atRest, speed_slowingFor moves, decide_eq_true_eq]
  refine if_congr Iff.rfl ?_ rfl
  rw [← place_slowingFor (r := r)]
  rfl

theorem reasoned_of_homing (homes : a.state = .homing) : a.reasoned rec' r now =
    { a.withReason r true with
      state := .suspended, resumeTo := some .homing, suspendedSince := some now
      run := some (.restAt (.whole a.position)) } := by
  have state : (a.withReason r true).state = .homing := (state_withReason true).trans homes
  simp only [reasoned, state]
  cases r <;> rfl

theorem reasoned_of_other (moves : a.state ≠ .moving) (homes : a.state ≠ .homing) :
    a.reasoned rec' r now = a.withReason r true := by
  rw [← state_withReason (r := r) true] at moves homes
  unfold reasoned
  dsimp only
  split
  · next state => exact absurd state moves
  · next state => exact absurd state homes
  all_goals rfl

/-- The ms of the present suspension. -/
def spent (a : Axis) (now : Time) : Nat :=
  match a.suspendedSince with
  | none => 0
  | some t => (now - t).toNat

/-- A suspension that ends is added up (R157). -/
def rested (a : Axis) (now : Time) : Axis :=
  if a.state = .suspended then { a with suspendedSince := none, suspendedTotal := a.suspendedTotal + a.spent now } else a

theorem relieved_of_reason (held : a.otherReason r = true) : a.relieved rec' r now = a.withReason r false :=
  if_pos (hasReason_withReason.trans held)

theorem relieved_of_last (last : a.otherReason r = false) : a.relieved rec' r now =
    (let b := a.withReason r false
     if b.state = .suspended ∨ b.state = .suspending then (b.rested now).resumed rec' else b) := by
  refine (if_neg (Bool.eq_false_iff.1 (hasReason_withReason.trans last))).trans ?_
  generalize a.withReason r false = b
  dsimp only
  split
  · next state =>
    rw [if_pos (.inl state), rested, if_pos state]
    rfl
  · next state =>
    have other : b.state ≠ .suspended := by simp [state]
    rw [if_pos (.inr state), rested, if_neg other]
  all_goals next state => rw [if_neg (by simp [state])]

theorem relieved_of_other (stays : a.state ≠ .suspended) (goes : a.state ≠ .suspending) :
    a.relieved rec' r now = a.withReason r false := by
  cases other : a.otherReason r with
  | true => exact relieved_of_reason other
  | false =>
    rw [relieved_of_last other]
    dsimp only
    rw [state_withReason, if_neg (not_or.2 ⟨stays, goes⟩)]

/-- The last reason gone, an axis that waits goes on (R156). -/
theorem relieved_of_waiting (last : a.otherReason r = false) (waits : a.state = .suspended ∨ a.state = .suspending) :
    a.relieved rec' r now = ((a.withReason r false).rested now).resumed rec' := by
  rw [relieved_of_last last]
  dsimp only
  rw [state_withReason, if_pos waits]

/-- What goes on then is the axis as it was, but for its reasons and the times of its suspension. -/
theorem rested_withReason (a : Axis) (r : SuspendReason) (now : Time) : ∃ guard hold since total,
    (a.withReason r false).rested now =
      { a with guardReason := guard, holdReason := hold, suspendedSince := since, suspendedTotal := total } := by
  unfold rested
  cases r <;> split <;> exact ⟨_, _, _, _, rfl⟩

theorem relieved_of_no_return (last : a.otherReason r = false) (waits : a.state = .suspended ∨ a.state = .suspending)
    (none : a.resumeTo = none) : a.relieved rec' r now = (a.withReason r false).rested now := by
  obtain ⟨guard, hold, since, total, is⟩ := rested_withReason a r now
  rw [relieved_of_waiting last waits, is]
  simp only [resumed, none]

theorem relieved_to_homing (last : a.otherReason r = false) (waits : a.state = .suspended ∨ a.state = .suspending)
    (homes : a.resumeTo = some .homing) : a.relieved rec' r now =
      { (a.withReason r false).rested now with
        state := .homing, resumeTo := none, direction := homeDirection rec' } := by
  obtain ⟨guard, hold, since, total, is⟩ := rested_withReason a r now
  rw [relieved_of_waiting last waits, is]
  simp only [resumed, homes]
  rfl

/-- A move goes on from the place and the speed the axis has. -/
theorem relieved_to_moving {p : Nat} (last : a.otherReason r = false)
    (waits : a.state = .suspended ∨ a.state = .suspending) (moves : a.resumeTo = some .moving)
    (aims : a.target = some p) : a.relieved rec' r now =
      let q := Run.toward rec' p (.whole a.profileMs) (a.place rec') (a.speed rec') a.direction
      { (a.withReason r false).rested now with state := .moving, resumeTo := none, run := some q.1, direction := q.2 } := by
  obtain ⟨guard, hold, since, total, is⟩ := rested_withReason a r now
  rw [relieved_of_waiting last waits, is]
  let b : Axis := { a with guardReason := guard, holdReason := hold, suspendedSince := since, suspendedTotal := total }
  have off : a.state ≠ .homing := by rcases waits with state | state <;> rw [state] <;> decide
  have aim : b.aim = p := congrArg (Option.getD · 0) aims
  have speed : b.speed rec' = a.speed rec' := speed_of_same off off rfl rfl rfl rfl
  have goes : b.resumed rec' = b.moving rec' := by simp only [resumed, b, moves]
  refine goes.trans ?_
  rw [moving, ramped, retargeted, aim, speed, ← aims]
  rfl

end Axis

namespace State

/-! ## Stalls (R159, R164, R181) -/

section Stalls

variable {s : State} {n : Fin 12}

theorem exists_bank_at (i : Fin 5) : ∃ b : Bank, b.place = i :=
  match i with
  | 0 => ⟨.link, rfl⟩
  | 1 => ⟨.showBank, rfl⟩
  | 2 => ⟨.scene, rfl⟩
  | 3 => ⟨.voice, rfl⟩
  | 4 => ⟨.motion, rfl⟩

theorem alarmed_iff : s.fault.alarmed = true ↔ ∃ b : Bank, (s.bank b).isSevere = true := by
  simp only [FaultUnit.alarmed, List.any_eq_true, mem_fins, true_and]
  constructor
  · rintro ⟨i, severe⟩
    obtain ⟨b, rfl⟩ := exists_bank_at i
    exact ⟨b, severe⟩
  · exact fun ⟨b, severe⟩ => ⟨b.place, severe⟩

theorem trigger_of_severe (severe : ∃ b : Bank, (s.bank b).isSevere = true) : s.trigger = [.safeTrigger] :=
  if_pos (alarmed_iff.2 severe)

theorem trigger_of_calm (calm : ∀ b : Bank, (s.bank b).isSevere = false) : s.trigger = [] :=
  if_neg fun alarmed => by
    obtain ⟨b, severe⟩ := alarmed_iff.1 alarmed
    cases severe.symm.trans (calm b)

/-- The stall input of an axis is not acted on: the axis is disabled, or a stall has failed it (R159). -/
def Deaf (s : State) (n : Fin 12) : Prop :=
  (s.axisRecord n).isEnabled = false ∨ (s.axis n).state = .faulted ∧ (s.axis n).lastResult = some .stall

theorem deaf_iff : s.Deaf n ↔ ¬ ((s.axisRecord n).isEnabled && !(s.axis n).stalled) = true := by
  simp only [Deaf, Axis.stalled, Bool.and_eq_true, Bool.not_eq_true', Bool.and_eq_false_iff, beq_eq_false_iff_ne,
    not_and_or, not_or, Bool.not_eq_true, not_not, ne_eq]

theorem stallRises_of_deaf (deaf : s.Deaf n) : s.stallRises n = (s, []) := if_neg (deaf_iff.1 deaf)

theorem stallRises_of_heard (heard : ¬ s.Deaf n) : s.stallRises n = s.stallAxis n :=
  if_pos (not_not.1 (mt deaf_iff.2 heard))

/-- A stall fails the axis from every state; STALL is logged before the trigger and the owner's stop (log 12). -/
theorem stallAxis_eq (s : State) (n : Fin 12) : s.stallAxis n =
    ((s.setAxis n { (s.syncedAxis n).failed .stall with homed := false, driverEnabled := false }).log .stall
      [n.val, (s.syncedAxis n).owner.code, (s.syncedAxis n).state.code, (s.syncedAxis n).position],
      s.trigger ++ [.stopStalled n]) := rfl

theorem perform_stallAtTake_of_quiet (quiet : s.Deaf n ∨ s.lines.stall.get n = .inactive) :
    perform (.stallAtTake n) s = (s, []) := by
  refine if_neg fun acts => ?_
  simp only [Bool.and_eq_true, beq_iff_eq] at acts
  obtain ⟨⟨enabled, active⟩, fresh⟩ := acts
  rcases quiet with deaf | inactive
  · exact deaf_iff.1 deaf (by rw [enabled, fresh]; rfl)
  · cases active.symm.trans inactive

theorem perform_stallAtTake_of_active (heard : ¬ s.Deaf n) (active : s.lines.stall.get n = .active) :
    perform (.stallAtTake n) s = s.stallAxis n := by
  have acts := not_not.1 (mt deaf_iff.2 heard)
  simp only [Bool.and_eq_true] at acts
  exact if_pos (by simp [acts, active])

theorem exec_stall (released : s.resetLow = false) (was : s.lines.stall.get n = .inactive) :
    exec (.stall n) s = .next (conclude ((s.setStallLine n .active).stallRises n)) := by
  show execStall n s = _
  simp [execStall, onLine, released, was]

theorem exec_stallInputInactive (released : s.resetLow = false) (was : s.lines.stall.get n = .active) :
    exec (.stallInputInactive n) s = .next (conclude (s.setStallLine n .inactive, [])) := by
  show execStallInputInactive n s = _
  simp [execStallInputInactive, onLine, released, was]

theorem stopStalled_of_slot {k : Fin 8} (owned : (s.axis n).owner = .slot k) :
    perform (.stopStalled n) s = (s, [.stopSlot k .axisFault, .giveUpAxis n]) := by
  simp only [perform, stopStalled, faultOwner_of_slot owned, List.cons_append, List.nil_append]

theorem stopStalled_of_no_slot (unowned : ∀ k, (s.axis n).owner ≠ .slot k) :
    perform (.stopStalled n) s = (s, [.giveUpAxis n]) := by
  simp only [perform, stopStalled, faultOwner_of_no_slot unowned, List.nil_append]

end Stalls

/-! ## The instants of the profile and the step pulses (R148, R149) -/

section Instants

variable {s : State} {n : Fin 12} {r : Run}

/-- The part of the profile that a MOVING axis is on has ended. -/
structure PartEnded (s : State) (n : Fin 12) (r : Run) : Prop where
  moves : (s.axis n).state = .moving
  runs : (s.axis n).run = some r
  past : r.over (s.axisRecord n) (s.axis n).direction (s.axis n).aim (s.axis n).profileMs = true

theorem partOver_of_ended (ended : s.PartEnded n r) (p : AxisRecord → Axis → Run → Bool) :
    s.partOver n p = p (s.axisRecord n) (s.axis n) r := by
  obtain ⟨moves, runs, past⟩ := ended
  simp only [partOver, moves, runs, past, Bool.true_and]

/-- The axis on the part of the profile that follows (R149). -/
def onNextPart (s : State) (n : Fin 12) (r : Run) : State :=
  let next := r.following (s.axisRecord n) (s.axis n).direction (s.axis n).aim
  s.setAxis n { s.axis n with
    position := (s.axis n).dueAt (s.axisRecord n), run := some next.1, direction := next.2 }

theorem nextPart_of_run (runs : (s.axis n).run = some r) : s.nextPart n = s.onNextPart n r := by
  simp only [nextPart, runs]
  rfl

/-- An instant of the profile that has come passes the axis to the part that follows. -/
theorem leaves_of_partEnded {c : Instr} {p : AxisRecord → Axis → Run → Bool} (released : s.resetLow = false)
    (reacts : exec c s = react s (s.partOver n p) (s.nextPart n, [])) (ended : s.PartEnded n r)
    (comes : p (s.axisRecord n) (s.axis n) r = true) : Leaves c s (s.onNextPart n r) := by
  rw [partOver_of_ended ended, comes, nextPart_of_run ended.runs, react, released] at reacts
  exact leaves_of_conclude reacts

theorem leaves_maximumSpeedReached (released : s.resetLow = false) (ended : s.PartEnded n r)
    (kind : r.kind = .speedingUp)
    (top : reachesMaximum (s.axisRecord n) r (s.axis n).direction (s.axis n).aim = true) :
    Leaves (.maximumSpeedReached n) s (s.onNextPart n r) :=
  leaves_of_partEnded (p := reachesTop) released rfl ended (by simp [reachesTop, kind, top])

theorem leaves_beginToSlow (released : s.resetLow = false) (ended : s.PartEnded n r)
    (slows : r.kind = .constant ∨ r.kind = .speedingUp ∧
      reachesMaximum (s.axisRecord n) r (s.axis n).direction (s.axis n).aim = false) :
    Leaves (.beginToSlow n) s (s.onNextPart n r) :=
  leaves_of_partEnded (p := beginsSlowing) released rfl ended (by simpa [beginsSlowing] using slows)

theorem leaves_directionReversal (released : s.resetLow = false) (ended : s.PartEnded n r) (kind : r.kind = .turning) :
    Leaves (.directionReversal n) s (s.onNextPart n r) :=
  leaves_of_partEnded (p := turnsBack) released rfl ended (by simp [turnsBack, kind])

/-- A pulse steps the position by 1, counted modulo 65,536. -/
theorem wrapPosition_step (p : Nat) (dir : Direction) : wrapPosition ((p : Int) + dir.sign) = match dir with
    | .higher => (p + 1) % 65536
    | .lower => (((p : Int) - 1) % 65536).toNat := by
  cases dir
  · rfl
  · simp only [wrapPosition, Direction.sign]
    omega

theorem exec_stepPulse (released : s.resetLow = false) (behind : (s.axis n).position ≠ (s.axis n).dueAt (s.axisRecord n)) :
    exec (.stepPulse n) s = .next (conclude (s.pulse n, [])) := by
  show execStepPulse n s = _
  simp [execStepPulse, react, isDue, released, behind]

end Instants

/-! ## Suspend reasons that join and leave (R155, R156, R158) -/

section Reasons

variable {s : State} {n : Fin 12} {r : SuspendReason}

/-- A GUARD reason finds the axis above half its maximum speed (R158). -/
def Breach (s : State) (n : Fin 12) (r : SuspendReason) : Prop :=
  r = .guard ∧ (s.syncedAxis n).state = .moving ∧
    (((s.syncedAxis n).speed (s.axisRecord n)).scale 2 1).atMost (.whole (s.axisRecord n).maxSpeed) = false

theorem breach_iff :
    (r = .guard && (s.syncedAxis n).breaches (s.axisRecord n) : Bool) = true ↔ s.Breach n r := by
  simp only [Breach, Axis.breaches, Bool.and_eq_true, decide_eq_true_eq, beq_iff_eq, Bool.not_eq_true']

theorem axis_addReason : (perform (.addReason n r) s).1.axis n =
    (s.syncedAxis n).reasoned (s.axisRecord n) r s.showTime := put_get_same ..

theorem perform_addReason_of_calm (calm : ¬ s.Breach n r) : perform (.addReason n r) s =
    (s.setAxis n ((s.syncedAxis n).reasoned (s.axisRecord n) r s.showTime), []) := by
  have quiet := mt breach_iff.1 calm
  simp only [perform, addReason, if_neg quiet]

theorem perform_addReason_of_breach (breach : s.Breach n r) : perform (.addReason n r) s =
    ((s.log .enclosureBreach [n.val, (s.axisRecord n).zone, (s.syncedAxis n).owner.code,
        (s.syncedAxis n).speedWord (s.axisRecord n), (s.syncedAxis n).position]).setAxis n
      ((s.syncedAxis n).reasoned (s.axisRecord n) r s.showTime), s.trigger) := by
  have found := breach_iff.2 breach
  simp only [perform, addReason, if_pos found]

theorem axis_removeReason : (perform (.removeReason n r) s).1.axis n =
    (s.syncedAxis n).relieved (s.axisRecord n) r s.showTime := put_get_same ..

theorem perform_removeReason (s : State) (n : Fin 12) (r : SuspendReason) : perform (.removeReason n r) s =
    (s.setAxis n ((perform (.removeReason n r) s).1.axis n), [.arrive n, .findHome n]) := by
  rw [axis_removeReason]
  rfl

end Reasons

/-- Settles O58: stalls, the instants of the profile, its numbers, then a reason that joins and one that leaves. -/
theorem stallsAndProfile : Obligations.StallsAndProfile := by
  unfold Obligations.StallsAndProfile
  intro s n released rec' at' a deaf
  refine ⟨fun was => ⟨fun unheard => ?unheard, fun heard => ?heard⟩,
    fun was => leaves_of_conclude (exec_stallInputInactive released was),
    ⟨perform_stallAtTake_of_quiet, perform_stallAtTake_of_active⟩,
    fun k => stopStalled_of_slot, stopStalled_of_no_slot, fun r moves runs past => ?instants, fun behind => ?pulse,
    rampNumbers rec', Axis.slowed_eq rec' a, fun r => ?joins, fun r => ?leaves⟩
  case unheard =>
    have moved := exec_stall released was
    rw [stallRises_of_deaf (s := s.setStallLine n .active) unheard] at moved
    exact leaves_of_conclude moved
  case heard =>
    intro failed u
    have moved := exec_stall released was
    rw [stallRises_of_heard (s := s.setStallLine n .active) heard, stallAxis_eq] at moved
    refine ⟨fun calm => ?_, fun severe => ?_⟩
    · rw [trigger_of_calm (s := s.setStallLine n .active) calm] at moved
      exact moved
    · rw [trigger_of_severe (s := s.setStallLine n .active) severe] at moved
      exact moved
  case instants =>
    intro next u top
    have ended : s.PartEnded n r := ⟨moves, runs, past⟩
    refine ⟨fun kind reaches => ⟨leaves_maximumSpeedReached released ended kind reaches, ?_⟩,
      fun slows => ⟨leaves_beginToSlow released ended slows, ?_⟩,
      fun kind => ⟨leaves_directionReversal released ended kind, ?_⟩⟩
    · have follows : next = _ := (following_speedingUp kind).trans (if_pos reaches)
      rw [follows]
      exact ⟨rfl, rfl⟩
    · rcases slows with kind | ⟨kind, short⟩
      · have follows : next = _ := following_constant kind
        rw [follows]
        exact ⟨rfl, rfl⟩
      · have follows : next = _ := (following_speedingUp kind).trans (if_neg (Bool.eq_false_iff.1 short))
        rw [follows]
        exact ⟨rfl, rfl⟩
    · have follows : next = _ := following_turning kind
      rw [follows]
      exact ⟨rfl, rfl⟩
  case pulse =>
    have pulsed := leaves_of_conclude (exec_stepPulse released behind)
    rw [pulse, wrapPosition_step] at pulsed
    exact pulsed
  case joins =>
    intro e breach detail more slower b
    have joined : b = a.reasoned rec' r s.showTime := axis_addReason
    have run : slower.run = a.slowedRun rec' := congrArg Axis.run (Axis.slowed_eq ..)
    refine ⟨fun calm => ?_, fun breaches => ⟨?_, ?_⟩, fun moves => ⟨fun fast => ?_, fun still => ?_⟩, fun homes => ?_,
      fun moves homes => ?_⟩
    · rw [joined]
      exact perform_addReason_of_calm calm
    · rw [joined]
      exact perform_addReason_of_breach breaches
    · have acted : e = _ := perform_addReason_of_breach breaches
      rw [acted]
      exact bank_log_same s .enclosureBreach detail
    · rw [run]
      exact joined.trans ((Axis.reasoned_of_moving moves).trans (if_neg (not_le.2 fast)))
    · exact joined.trans ((Axis.reasoned_of_moving moves).trans (if_pos still))
    · exact joined.trans (Axis.reasoned_of_homing homes)
    · exact joined.trans (Axis.reasoned_of_other moves homes)
  case leaves =>
    intro e b less other spent back
    have left : b = a.relieved rec' r s.showTime := axis_removeReason
    have backed : back = (a.withReason r false).rested s.showTime := by
      cases r <;> rfl
    refine ⟨perform_removeReason s n r, fun stays => ?_, fun last waits => ⟨fun none => ?_, fun homes => ?_,
      fun p moves aims => ?_⟩⟩
    · rw [left]
      rcases stays with held | ⟨stays, goes⟩
      · exact Axis.relieved_of_reason held
      · exact Axis.relieved_of_other stays goes
    · rw [left, backed, Axis.relieved_of_no_return last waits none]
    · rw [left, backed, Axis.relieved_to_homing last waits homes]
    · rw [left, backed, Axis.relieved_to_moving last waits moves aims]

end State

end Sys2Proof.Machine
end

section
/-! PROOFS: the extent pins (file 10). The Pin Table's law over a step (R165): a ms of show time takes no slot into or out of
FREE, and leaves the Pin Table and the voices as they are. -/

namespace Sys2Proof.Machine

theorem pins_tick (s : State) : s.tick.pins = s.pins := by
  unfold State.tick; split <;> rfl

theorem voice_tick (s : State) (v : Fin 8) : s.tick.voice v = s.voice v := by
  unfold State.tick; split <;> rfl

theorem PinLaw.tick {s : State} (h : PinLaw s) : PinLaw s.tick := by
  obtain ⟨slots, voices⟩ := h
  constructor
  · intro k
    rw [pins_tick, state_slot_tick]
    exact slots k
  · intro v
    rw [pins_tick, voice_tick]
    exact voices v

/-- Settles O10: `PinLaw` holds throughout an event, at its end and at reset. Of the changes of an event those that take a slot
into or out of FREE, or a voice into or out of a pinned state, set the owner's place with it (`Change.pin`). -/
theorem stepKeepsPinLaw : Obligations.StepKeepsPinLaw := by
  intro s t h e
  exact step_keeps PinLaw PinLaw (pre := fun _ => id) (change := Change.pin) (settle := PinLaw.settle)
    (lines := fun _ _ => id) (pending := fun _ _ => id) (reset := fun _ => pinLaw_reset)
    (tick := fun _ => PinLaw.tick) h e

end Sys2Proof.Machine
end

section
/-! PROOFS: the fault banks (R180 to R182). The law of SEVERE records over a step; what becomes of an arriving fault, row by
row of R180's table (`BankRecord.decide_of_off` and its companions); the part that SAFE entry leaves (`ctl_enterSafe` and its
companions); and the end of an event that clears a bank. -/

namespace Sys2Proof.Machine

/-! ## SEVERE records over a step -/

theorem fault_tick (s : State) : s.tick.fault = s.fault := by
  unfold State.tick; split <;> rfl

theorem SevereLaw.tick {s : State} (h : SevereLaw s) : SevereLaw s.tick := by
  intro b severe
  rw [State.bank, fault_tick] at severe
  exact h b severe

/-- Settles O9: `SevereLaw` holds throughout an event, at its end and at reset. Of the changes of an event only a logged fault
writes a valid record, and the SEVERE codes are all of the MOTION bank (`Change.severe`). -/
theorem stepKeepsSevereLaw : Obligations.StepKeepsSevereLaw := by
  intro s t h e
  exact step_keeps SevereLaw SevereLaw (pre := fun _ => id) (change := Change.severe) (settle := SevereLaw.settle)
    (lines := fun _ _ => id) (pending := fun _ _ => id) (reset := fun _ => severeLaw_reset)
    (tick := fun _ => SevereLaw.tick) h e

/-! ## The table of R180 -/

namespace BankRecord

variable {r : BankRecord} {policy : PolicyRecord} {code : FaultCode} {detail : List Word} {now : Time} {held : Severity}

/-- The fault's logging is off: its bank's log enable is not 1 and it is not SEVERE. -/
def Off (policy : PolicyRecord) (code : FaultCode) : Prop := code.severity ≠ .severe ∧ policy.logEnable ≠ 1

theorem decide_of_off (off : Off policy code) : r.decide policy code detail now = ⟨r, false⟩ := if_pos off

theorem decide_of_invalid (on : ¬ Off policy code) (invalid : r.valid = false) : r.decide policy code detail now =
    ⟨⟨true, some code.severity, some code, detail, now, false, false⟩, true⟩ := by
  refine (if_neg on).trans (if_pos ?_)
  rw [invalid]; rfl

/-- What meets a valid record goes by the two severities. -/
theorem decide_of_valid (on : ¬ Off policy code) (valid : r.valid = true) (severity : r.severity = some held) :
    r.decide policy code detail now =
      if code.severity.code ≤ held.code then
        ⟨{ r with overflow := true, showStateLost := r.showStateLost || code.severity == .severe }, false⟩
      else ⟨⟨true, some code.severity, some code, detail, now, true, r.showStateLost⟩, true⟩ := by
  have outranks : r.outranks code.severity = Decidable.decide (code.severity.code ≤ held.code) := by
    rw [BankRecord.outranks.eq_def, severity]
  refine (if_neg on).trans ?_
  rw [valid, outranks]
  by_cases most : code.severity = .severe
  · simp [most]
  · have other : (code.severity == .severe) = false := beq_false_of_ne most
    simp [most, other]

end BankRecord

namespace State

section Logging

variable (s : State) (marks : Bool) (code : FaultCode) (detail : List Nat)

theorem bank_logMarking_same : (s.logMarking marks code detail).bank code.bank = (s.decideFault code detail).record :=
  put_get_same ..

theorem bank_logMarking_other {b : Bank} (other : b ≠ code.bank) : (s.logMarking marks code detail).bank b = s.bank b :=
  put_get_other _ _ fun e => other (bankPlace_inj e).symm

/-- The page is dirty if it was, or if a fault that marks it has changed a record (R183). -/
theorem dirty_logMarking : (s.logMarking marks code detail).fault.dirty = true ↔
    s.fault.dirty = true ∨ marks = true ∧ (s.logMarking marks code detail).bank code.bank ≠ s.bank code.bank := by
  rw [bank_logMarking_same]
  simp [logMarking]

variable {s code detail}

/-- A fault that is not logged, or whose bank is left, produces no record. -/
theorem reportFault_of_unlogged {r : BankRecord} (decision : s.decideFault code detail = ⟨r, false⟩) :
    s.reportFault code detail = s.report := by
  rw [reportFault, decision]; rfl

/-- A logged fault at or above the threshold produces its FAULT record (R180). -/
theorem reportFault_of_logged {r : BankRecord} (decision : s.decideFault code detail = ⟨r, true⟩) :
    s.reportFault code detail = if (s.policy code.bank).threshold ≤ code.severity.code then
      s.report.joined ⟨.fault code (detailWords detail), s.showTime⟩ else s.report := by
  rw [reportFault, decision]
  simp [PolicyRecord.reports]

/-- A fault whose logging is off changes nothing. -/
theorem logMarking_of_off (off : BankRecord.Off (s.policy code.bank) code) : s.logMarking marks code detail = s := by
  have decision : s.decideFault code detail = ⟨s.bank code.bank, false⟩ := BankRecord.decide_of_off off
  rw [logMarking, reportFault_of_unlogged decision, decision]
  simp [bank]

end Logging

/-! ## SAFE entry (R177) -/

section SafeEntry

variable (s : State)

theorem ctl_enterSafe : s.enterSafe.1.ctl = { s.ctl with state := .safe, restore := none } := by
  have entered : (s.changeShow .safe).ctl.restore = s.ctl.restore := rfl
  unfold enterSafe abandonRestore
  rw [entered]
  cases restore : s.ctl.restore with
  | none => simp [changeShow, restore]
  | some r => rfl

theorem lamp_enterSafe : s.enterSafe.1.lamp = { s.lamp with houseLights := true } := by
  unfold enterSafe abandonRestore
  split <;> rfl

theorem rest_enterSafe : { s.enterSafe.1 with
    ctl := s.ctl, lamp := s.lamp, report := s.report, arb := s.arb, port := s.port } = s := by
  have entered : (s.changeShow .safe).ctl.restore = s.ctl.restore := rfl
  unfold enterSafe abandonRestore
  rw [entered]
  cases s.ctl.restore <;> simp [changeShow, dropRestore, withdrawLookup, discard, produce]

/-- The notices of SAFE entry, the first apart. -/
theorem tasks_enterSafe : s.enterSafe.2 = .dropAll .safe :: ((fins 8).map (fun k => .stopSlot k .safe) ++
    (fins 128).map .safeChannel ++ (fins 8).map .idleVoice ++ (fins 12).map .safeAxis ++
      (if s.ctl.state = .hold then [.clearHold] else [])) := by
  simp only [enterSafe, safeNotices, List.cons_append, List.nil_append, beq_iff_eq]

variable {s}

/-- With no restore under way SAFE entry produces the SHOW STATE record alone. -/
theorem enterSafe_of_no_restore (none : s.ctl.restore = none) : s.enterSafe.1.report =
    (s.produce (.showState s.ctl.state .safe)).report ∧ s.enterSafe.1.arb = s.arb ∧ s.enterSafe.1.port = s.port := by
  have entered : (s.changeShow .safe).ctl.restore = .none := none
  unfold enterSafe abandonRestore
  rw [entered]
  exact ⟨rfl, rfl, rfl⟩

/-- A restore under way is abandoned: its record comes next, and its request or its line in flight is dropped (R186,
log 19). -/
theorem enterSafe_of_restore (restores : s.ctl.restore.isSome = true) : s.enterSafe.1.report =
      ((s.produce (.showState s.ctl.state .safe)).produce (.restoreDone .abandoned 0)).report ∧
    s.enterSafe.1.arb = { s.arb with lookups := s.arb.lookups.filter fun l => l.who != .restore } ∧
    ∀ f, s.port = some f → s.enterSafe.1.port = some { f with live := f.live && !f.purpose.isRestore } := by
  obtain ⟨r, restores⟩ := Option.isSome_iff_exists.1 restores
  have entered : (s.changeShow .safe).ctl.restore = some r := restores
  unfold enterSafe abandonRestore
  rw [entered]
  refine ⟨rfl, rfl, fun f flying => ?_⟩
  have dropped : (s.port.map fun f => if Purpose.isRestore f.purpose then { f with live := false } else f) =
      some { f with live := f.live && !f.purpose.isRestore } := by
    rw [flying]
    cases read : f.purpose.isRestore <;> simp [read]
  exact dropped

/-- In RUN, HOLD and DRAINING the trigger enters SAFE (R177). -/
theorem perform_safeTrigger_of_open (opened : s.ctl.state = .run ∨ s.ctl.state = .hold ∨ s.ctl.state = .draining) :
    perform .safeTrigger s = s.enterSafe := by
  show s.takeTrigger = _
  rcases opened with state | state | state <;> simp only [takeTrigger, state]

theorem perform_safeTrigger_of_start (start : s.ctl.state = .start) :
    perform .safeTrigger s = ({ s with ctl := { s.ctl with safePending := true } }, []) := by
  show s.takeTrigger = _
  simp only [takeTrigger, start]

theorem perform_safeTrigger_of_closed (closed : s.ctl.state = .unconfigured ∨ s.ctl.state = .safe) :
    perform .safeTrigger s = (s, []) := by
  show s.takeTrigger = _
  rcases closed with state | state <;> simp only [takeTrigger, state]

end SafeEntry

/-- Settles O41: what logging leaves alone, the four rows of R180's table, then the trigger by show state. -/
theorem faultsAreLogged : Obligations.FaultsAreLogged := by
  unfold Obligations.FaultsAreLogged
  intro s code detail marks t r sev words off told
  have record : t.bank code.bank = (s.decideFault code detail).record := bank_logMarking_same ..
  have report : t.report = s.reportFault code detail := rfl
  refine ⟨rfl, fun b => bank_logMarking_other s marks code detail, dirty_logMarking s marks code detail, rfl, rfl,
    logMarking_of_off marks, fun on invalid => ?invalid, fun on valid held severity => ⟨fun lower => ?lower,
      fun higher => ?higher⟩,
    trigger_of_severe, trigger_of_calm, perform_safeTrigger_of_start, perform_safeTrigger_of_closed, fun opened => ?opened⟩
  case invalid =>
    have decision : s.decideFault code detail = _ := BankRecord.decide_of_invalid on invalid
    rw [record, report, reportFault_of_logged decision, decision]
    exact ⟨rfl, rfl⟩
  case lower =>
    have decision : s.decideFault code detail = _ :=
      (BankRecord.decide_of_valid on valid severity).trans (if_neg (Nat.not_le.2 lower))
    rw [record, report, reportFault_of_logged decision, decision]
    exact ⟨rfl, rfl⟩
  case higher =>
    have decision : s.decideFault code detail = _ :=
      (BankRecord.decide_of_valid on valid severity).trans (if_pos higher)
    rw [record, report, reportFault_of_unlogged decision, decision]
    exact ⟨rfl, rfl⟩
  case opened =>
    rw [perform_safeTrigger_of_open opened]
    exact ⟨tasks_enterSafe s, ctl_enterSafe s, lamp_enterSafe s, enterSafe_of_no_restore, enterSafe_of_restore,
      rest_enterSafe s⟩

/-! ## CLEAR FAULT (R182) -/

/-- The page is dirty, or its writer, idle before, has begun a pass (R183). -/
def PageMarked (before : Option Nat) (s : State) : Prop :=
  s.fault.dirty = true ∧ s.fault.writer = before ∨ before = none ∧ s.fault.writer = some 0

variable {before : Option Nat} {s : State}

theorem PageMarked.raiseAll (marked : PageMarked before s) : PageMarked before s.raiseAll := by
  rw [raiseAll_eq]
  unfold PageMarked at *
  dsimp only [faultBegun]
  split_ifs with begins
  · rcases marked with ⟨-, writer⟩ | later
    · have idle : s.fault.writer = none := by simp_all [pageBegins]
      exact .inr ⟨writer ▸ idle, rfl⟩
    · exact .inr ⟨later.1, rfl⟩
  · exact marked

theorem PageMarked.log (marked : PageMarked before s) (code : FaultCode) (detail : List Nat) :
    PageMarked before (s.log code detail) :=
  marked.imp_left fun ⟨dirty, writer⟩ => ⟨(dirty_logMarking ..).2 (.inl dirty), writer⟩

theorem PageMarked.grant (marked : PageMarked before s) : PageMarked before s.grant := by
  rcases s.grant_cases with ⟨-, e⟩ | ⟨-, ⟨a, p, e, -⟩ | ⟨x, -, -, e⟩⟩
  · rwa [e]
  · rwa [e]
  · rw [e]
    exact grantForwarded_of s x marked (fun _ => marked) fun u code detail k => k.log code detail

theorem PageMarked.settle (marked : PageMarked before s) : PageMarked before s.settle :=
  settle_of (P := PageMarked before) (fun _ => PageMarked.raiseAll) (fun _ => PageMarked.grant) (fun _ => id) marked

theorem cueClearFault_eq {c : TakenCue} {b : Bank} (named : paramByte c.params 4 = b.place.val) :
    s.cueClearFault c = (((s.answer c .accepted).setBank b .invalid).markDirty, []) := by
  have param : bankParam c.params = some b := by
    rw [bankParam, named]; cases b <;> rfl
  rw [cueClearFault, param]

/-- Settles O39. -/
theorem faultIsCleared : Obligations.FaultIsCleared := by
  unfold Obligations.FaultIsCleared
  intro s c rest b head named u v
  have taken : exec .clearFault s = .next (conclude (v, [])) := by
    rw [show exec .clearFault s = _ from exec_of_headIs head, unitOf, cueClearFault_eq named]
    rfl
  have marked : PageMarked s.fault.writer v.settle := PageMarked.settle (.inl ⟨rfl, rfl⟩)
  have ends : conclude (v, []) = v.settle := by rw [conclude, runTasks_nil]
  refine ⟨taken, leaves_of_conclude taken, put_get_same ..,
    fun d other => put_get_other _ _ fun e => other (bankPlace_inj e).symm,
    v.settle, by rw [taken, ends], (interior_settle v).ctl, attentionLaw_settle v, ?_⟩
  rcases marked with ⟨dirty, -⟩ | ⟨idle, begun⟩
  · exact .inl dirty
  · cases dirty : v.settle.fault.dirty with
    | true => exact .inl rfl
    | false => exact .inr ⟨idle, rfl, begun⟩

end State

end Sys2Proof.Machine
end

section
/-! PROOFS: HOLD (R175). The slots that a change of the show takes from one state to another, with their channels
(`turnSlots`); and which tasks tell Show Control (`ctl_perform`). -/

namespace Sys2Proof.Machine

theorem Voice.paused_eq (v : Voice) : v.paused = match v.state with
    | .playing => { v with state := .paused, resumeTo := some .playing }
    | .starved => { v with state := .paused, resumeTo := some .starved }
    | .draining => { v with state := .paused, resumeTo := some .draining }
    | _ => v := by
  unfold Voice.paused
  cases v.state <;> rfl

namespace State

/-! ## Slots that go from one state to another -/

section Turn

variable {old new : SlotState} {turn : Channel → Time → Channel} {slots : List (Fin 8)}

/-- A slot of one state goes to another, and the fades of its channels with it (R113, R124). -/
def turnSlot (s : State) (old new : SlotState) (turn : Channel → Time → Channel) (k : Fin 8) : State :=
  if (s.slot k).state = old then
    (s.setSlot k { s.slot k with state := new }).mapChannels fun c => if c.owner = some k then turn c s.showTime else c
  else s

def turnSlots (s : State) (old new : SlotState) (turn : Channel → Time → Channel) (slots : List (Fin 8)) : State :=
  slots.foldl (fun t k => t.turnSlot old new turn k) s

theorem holdSlots_eq (s : State) : s.holdSlots = s.turnSlots .running .held Channel.frozen (fins 8) := rfl

theorem perform_releaseSlots (s : State) : perform .releaseSlots s =
    (s.turnSlots .held .running Channel.thawed (fins 8),
      ((fins 8).filter fun k => (s.slot k).state == .held).map fun k => .takeSteps k none) := rfl

theorem releaseSlots_eq (s : State) :
    (perform .releaseSlots s).1 = s.turnSlots .held .running Channel.thawed (fins 8) := by
  rw [perform_releaseSlots]

theorem rest_turnSlot (s : State) (k : Fin 8) :
    { s.turnSlot old new turn k with slots := s.slots, lamp := s.lamp } = s := by
  unfold turnSlot; split <;> rfl

theorem slot_turnSlot (s : State) (k j : Fin 8) : (s.turnSlot old new turn k).slot j =
    if k = j ∧ (s.slot j).state = old then { s.slot j with state := new } else s.slot j := by
  unfold turnSlot
  by_cases turns : (s.slot k).state = old
  · have turned : ((s.setSlot k { s.slot k with state := new }).slot j) = _ := slot_setSlot ..
    rw [if_pos turns]
    refine turned.trans ?_
    by_cases same : k = j
    · subst same
      simp [turns]
    · simp [same]
  · rw [if_neg turns, if_neg]
    rintro ⟨rfl, stays⟩
    exact turns stays

theorem channel_turnSlot (s : State) (k : Fin 8) (c : Fin 128) : (s.turnSlot old new turn k).channel c =
    if (s.channel c).owner = some k ∧ (s.slot k).state = old then turn (s.channel c) s.showTime else s.channel c := by
  unfold turnSlot
  by_cases turns : (s.slot k).state = old
  · rw [if_pos turns, channel_mapChannels]
    exact if_congr (by simp [turns]; rfl) rfl rfl
  · rw [if_neg turns, if_neg fun h => turns h.2]

theorem showTime_turnSlot (s : State) (k : Fin 8) : (s.turnSlot old new turn k).showTime = s.showTime := by
  have stands := congrArg State.showTime (rest_turnSlot (old := old) (new := new) (turn := turn) s k)
  exact stands

/-- All but the slots and the channels stands. -/
theorem rest_turnSlots (s : State) : { s.turnSlots old new turn slots with slots := s.slots, lamp := s.lamp } = s := by
  induction slots generalizing s with
  | nil => rfl
  | cons k slots ih =>
    have later := congrArg (fun u : State => { u with slots := s.slots, lamp := s.lamp }) (ih (s.turnSlot old new turn k))
    exact later.trans (rest_turnSlot s k)

theorem slot_turnSlots (s : State) (once : slots.Nodup) (j : Fin 8) : (s.turnSlots old new turn slots).slot j =
    if j ∈ slots ∧ (s.slot j).state = old then { s.slot j with state := new } else s.slot j := by
  induction slots generalizing s with
  | nil => simp [turnSlots]
  | cons k slots ih =>
    obtain ⟨apart, once⟩ := List.nodup_cons.1 once
    have later : (s.turnSlots old new turn (k :: slots)).slot j = _ := ih (s.turnSlot old new turn k) once
    rw [later, slot_turnSlot]
    by_cases same : k = j
    · subst same
      simp [apart]
    · simp [same, Ne.symm same]

/-- A channel goes with its owner. -/
theorem channel_turnSlots (s : State) (once : slots.Nodup) (keeps : ∀ x now, (turn x now).owner = x.owner) (c : Fin 128) :
    (s.turnSlots old new turn slots).channel c = match (s.channel c).owner with
      | some k => if k ∈ slots ∧ (s.slot k).state = old then turn (s.channel c) s.showTime else s.channel c
      | none => s.channel c := by
  induction slots generalizing s with
  | nil => cases owner : (s.channel c).owner <;> simp [turnSlots]
  | cons k slots ih =>
    obtain ⟨apart, once⟩ := List.nodup_cons.1 once
    have later : (s.turnSlots old new turn (k :: slots)).channel c = _ := ih (s.turnSlot old new turn k) once
    have owned : ((s.turnSlot old new turn k).channel c).owner = (s.channel c).owner := by
      rw [channel_turnSlot]; split
      · exact keeps ..
      · rfl
    rw [later, owned, showTime_turnSlot]
    cases owner : (s.channel c).owner with
    | none => simp [channel_turnSlot, owner]
    | some j =>
      by_cases same : k = j
      · subst same
        simp [channel_turnSlot, owner, apart]
      · simp [channel_turnSlot, slot_turnSlot, owner, same, Ne.symm same]

/-- All slots of one state go to another, told of a state with the same slots. -/
theorem slot_turnAll {w s : State} (slots : w.slots = s.slots) (j : Fin 8) :
    (w.turnSlots old new turn (fins 8)).slot j =
      if (s.slot j).state = old then { s.slot j with state := new } else s.slot j := by
  have same : w.slot j = s.slot j := congrArg (Vector.get · j) slots
  rw [slot_turnSlots w (nodup_fins 8), same]
  simp only [mem_fins, true_and]

theorem channel_turnAll {w s : State} (keeps : ∀ x now, (turn x now).owner = x.owner) (slots : w.slots = s.slots)
    (lamp : w.lamp = s.lamp) (time : w.showTime = s.showTime) (c : Fin 128) :
    (w.turnSlots old new turn (fins 8)).channel c = match (s.channel c).owner with
      | some k => if (s.slot k).state = old then turn (s.channel c) s.showTime else s.channel c
      | none => s.channel c := by
  have same : w.channel c = s.channel c := congrArg (fun l : LampUnit => l.channels.get c) lamp
  rw [channel_turnSlots w (nodup_fins 8) keeps, same, time]
  cases (s.channel c).owner with
  | none => rfl
  | some k =>
    have stands : w.slot k = s.slot k := congrArg (Vector.get · k) slots
    simp only [mem_fins, true_and, stands]

end Turn

theorem voice_pauseVoices (s : State) (v : Fin 8) : s.pauseVoices.voice v = (s.voice v).paused := tabulate_get _ _

section Units

variable {w s : State} (slots : w.slots = s.slots) (lamp : w.lamp = s.lamp) (time : w.showTime = s.showTime)

include slots

theorem slot_holdSlots (k : Fin 8) : w.holdSlots.slot k =
    if (s.slot k).state = .running then { s.slot k with state := .held } else s.slot k := by
  rw [holdSlots_eq]
  exact slot_turnAll slots k

theorem slot_releaseSlots (k : Fin 8) : (perform .releaseSlots w).1.slot k =
    if (s.slot k).state = .held then { s.slot k with state := .running } else s.slot k := by
  rw [releaseSlots_eq]
  exact slot_turnAll slots k

include lamp time

theorem channel_holdSlots (c : Fin 128) : w.holdSlots.channel c = match (s.channel c).owner with
    | some k => if (s.slot k).state = .running then (s.channel c).frozen s.showTime else s.channel c
    | none => s.channel c := by
  rw [holdSlots_eq]
  exact channel_turnAll (turn := Channel.frozen) (fun _ _ => rfl) slots lamp time c

theorem channel_releaseSlots (c : Fin 128) : (perform .releaseSlots w).1.channel c = match (s.channel c).owner with
    | some k => if (s.slot k).state = .held then (s.channel c).thawed s.showTime else s.channel c
    | none => s.channel c := by
  rw [releaseSlots_eq]
  exact channel_turnAll (turn := Channel.thawed) (fun _ _ => rfl) slots lamp time c

end Units

theorem slot_pauseVoices (s : State) (k : Fin 8) : s.pauseVoices.slot k = s.slot k := rfl

theorem channel_pauseVoices (s : State) (n : Fin 128) : s.pauseVoices.channel n = s.channel n := rfl

/-- The slots and the voices hold, their channels freeze, and the rest stands. -/
theorem frame_heldShow (s : State) :
    let u := s.holdSlots.pauseVoices
    u.ctl = s.ctl ∧ u.report = s.report ∧ u.axes = s.axes ∧ u.zones = s.zones ∧ u.req = s.req ∧
      ∀ v, u.voice v = (s.voice v).paused := by
  have stands := rest_turnSlots (old := .running) (new := .held) (turn := Channel.frozen) (slots := fins 8) s
  rw [← holdSlots_eq] at stands
  generalize s.holdSlots = held at stands
  have ctl := congrArg State.ctl stands
  have report := congrArg State.report stands
  have axes := congrArg State.axes stands
  have zones := congrArg State.zones stands
  have req := congrArg State.req stands
  have voices := congrArg State.voices stands
  exact ⟨ctl, report, axes, zones, req, fun v =>
    (voice_pauseVoices held v).trans (congrArg (fun x => (Vector.get x v).paused) voices)⟩

theorem frame_releaseSlots (s : State) : (perform .releaseSlots s).1.ctl = s.ctl ∧
    (perform .releaseSlots s).1.report = s.report := by
  have stands := rest_turnSlots (old := .held) (new := .running) (turn := Channel.thawed) (slots := fins 8) s
  rw [← releaseSlots_eq] at stands
  generalize (perform .releaseSlots s).1 = released at stands ⊢
  have ctl := congrArg State.ctl stands
  have report := congrArg State.report stands
  exact ⟨ctl, report⟩

section Cues

variable {s : State} {c : TakenCue}

/-- A cue's answer and the change of the show reach the Cue Unit, the Report Unit and Show Control alone. -/
theorem frame_changed (rest : List CueEntry) (result : CueResult) (next : ShowState) :
    let w := (s.answered c rest result).changeShow next
    w.slots = s.slots ∧ w.lamp = s.lamp ∧ w.showTime = s.showTime ∧ w.voices = s.voices ∧ w.axes = s.axes ∧
      w.zones = s.zones ∧ w.req = s.req ∧ w.ctl = { s.ctl with state := next } ∧
      w.report = ((s.answered c rest result).produce (.showState s.ctl.state next)).report := by
  simp [changeShow, answered, answer, consumed]

theorem cueHoldShow_refused (state : s.ctl.state ≠ .run) : s.cueHoldShow c = s.refuse c .wrongState := if_neg state

theorem cueHoldShow_accepted (state : s.ctl.state = .run) : s.cueHoldShow c = (s.answer c .accepted).enterHold .hold :=
  if_pos state

theorem cueReleaseShow_refused (state : s.ctl.state ≠ .hold) : s.cueReleaseShow c = s.refuse c .wrongState := if_neg state

theorem cueReleaseShow_accepted (state : s.ctl.state = .hold) : s.cueReleaseShow c = (s.answer c .accepted).leaveHold :=
  if_pos state

end Cues

/-- Settles O37: what the units make of the two cues, slot by slot, channel by channel and voice by voice. -/
theorem holdAndRelease : Obligations.HoldAndRelease := by
  unfold Obligations.HoldAndRelease
  intro s c rest refused accepted
  refine ⟨fun head => ⟨fun state => ?notHeld, fun state => ?held⟩,
    fun head => ⟨fun state => ?notReleased, fun state => ?released⟩⟩
  case notHeld =>
    have taken : exec .holdShow s = _ := exec_of_headIs head
    rw [unitOf, cueHoldShow_refused (s := s.consumed rest) state] at taken
    exact leaves_of_conclude taken
  case held =>
    intro u
    have taken : exec .holdShow s = _ := exec_of_headIs head
    rw [unitOf, cueHoldShow_accepted (s := s.consumed rest) state] at taken
    obtain ⟨ctl, report, axes, zones, req, voice⟩ := frame_heldShow (accepted.changeShow .hold)
    obtain ⟨slots, lamp, time, voices, axes', zones', req', ctl', report'⟩ :=
      frame_changed (s := s) (c := c) rest .accepted .hold
    rw [state] at report'
    refine ⟨taken, ctl.trans ctl', report.trans report', axes.trans axes', zones.trans zones', req.trans req',
      fun k => ?_, fun n => ?_, fun v => ?_⟩
    · exact (slot_pauseVoices ..).trans (slot_holdSlots slots k)
    · exact (channel_pauseVoices ..).trans (channel_holdSlots slots lamp time n)
    · have same : (accepted.changeShow .hold).voice v = s.voice v := congrArg (Vector.get · v) voices
      exact ((voice v).trans (congrArg Voice.paused same)).trans (Voice.paused_eq (s.voice v))
  case notReleased =>
    have taken : exec .releaseShow s = _ := exec_of_headIs head
    rw [unitOf, cueReleaseShow_refused (s := s.consumed rest) state] at taken
    exact leaves_of_conclude taken
  case released =>
    intro u
    have taken : exec .releaseShow s = _ := exec_of_headIs head
    rw [unitOf, cueReleaseShow_accepted (s := s.consumed rest) state] at taken
    obtain ⟨ctl, report⟩ := frame_releaseSlots (accepted.changeShow .run)
    obtain ⟨slots, lamp, time, -, -, -, -, ctl', report'⟩ := frame_changed (s := s) (c := c) rest .accepted .run
    rw [state] at report'
    refine ⟨?_, ctl.trans ctl', report.trans report', fun k => ?_, fun n => ?_⟩
    · have begins := follow_cons (n := 0) (by decide) .releaseSlots
        (.resumeVoices :: ((s.enabledAxes.map fun n => .removeReason n .hold) ++ [.askScan])) (accepted.changeShow .run)
      exact taken.trans (congrArg _ begins)
    · exact slot_releaseSlots slots k
    · exact channel_releaseSlots slots lamp time n

/-! ## What tells Show Control -/

section Control

variable (s : State)

@[simp] theorem ctl_dropWhere (p : Request → Bool) (reason : DropReason) : (s.dropWhere p reason).ctl = s.ctl :=
  (dropped_dropWhere s p reason).ctl

@[simp] theorem ctl_startMove (k : Fin 8) (n : Fin 12) (p : Nat) : (s.startMove k n p).1.ctl = s.ctl := by
  unfold startMove; dsimp only; (repeat' split) <;> rfl

@[simp] theorem ctl_startNarration (k v : Fin 8) (g : Nat) : (s.startNarration k v g).ctl = s.ctl := by
  unfold startNarration; dsimp only; split <;> rfl

/-- No step's action touches Show Control. -/
theorem ctl_act (k : Fin 8) (index : Nat) (t : Step) : (s.act k index t).1.ctl = s.ctl := by
  unfold act
  split
  · rfl
  · rfl
  · unfold takeNarrate; split
    · rfl
    · exact ctl_startNarration ..
  · unfold takeMove; split
    · rfl
    · exact ctl_startMove ..
  · unfold takeWait; split
    · rfl
    · split <;> rfl
  · unfold takeMark; split <;> rfl
  · unfold takeLoop; split
    · rfl
    · dsimp only; split <;> rfl
  · rfl

theorem ctl_takeSteps (k : Fin 8) (arrived : Option Nat) : (s.takeSteps k arrived).1.ctl = s.ctl := by
  have told : ∀ (u : State) (o : Option Nat) (detail : Nat → List Nat), u.ctl = s.ctl →
      (match o with
        | none => u
        | some l => u.log .stepLate (detail l)).ctl = s.ctl := by
    intro u o detail same; cases o <;> exact same
  unfold takeSteps
  split
  · split
    · rfl
    · split
      · rfl
      · split
        · unfold takeStep
          dsimp only
          split
          · exact told _ _ _ rfl
          · exact (ctl_act ..).trans (told _ _ _ rfl)
        · rfl
  · rfl

theorem ctl_request (n : Fin 32) (o : Origin) : (s.request n o).1.ctl = s.ctl := by
  unfold request; split <;> rfl

@[simp] theorem ctl_start (r : Request) (k : Fin 8) : (s.start r k).ctl = s.ctl := by simp [start, claim, setCooldown]

theorem ctl_judgeWaiting (n : Fin 32) : (s.judgeWaiting n).1.ctl = s.ctl := by
  unfold judgeWaiting
  (repeat' split) <;> simp [restartInto, preempt, reserve, setCooldown]

theorem ctl_turnSlots (old new : SlotState) (turn : Channel → Time → Channel) (slots : List (Fin 8)) :
    (s.turnSlots old new turn slots).ctl = s.ctl := by
  have stands := congrArg State.ctl (rest_turnSlots (old := old) (new := new) (turn := turn) (slots := slots) s)
  exact stands

end Control

end State

open State

/-- The tasks that tell Show Control: the quiet test, the SAFE trigger, the end of a load and a snapshot's start. -/
def Task.tellsShow : Task → Bool
  | .quietTest | .safeTrigger | .leaveStart _ | .startSnapshot _ => true
  | _ => false

/-- Every other task leaves Show Control as it is: each of its branches changes its own unit's places. -/
theorem ctl_perform (t : Task) (s : State) (quiet : t.tellsShow = false) : (perform t s).1.ctl = s.ctl := by
  cases t with
  | quietTest | safeTrigger | leaveStart | startSnapshot => cases quiet
  -- the Scene Runner
  | takeSteps => exact ctl_takeSteps ..
  | releaseSlots => exact ctl_turnSlots ..
  | faultRestored => rfl
  | stopSlot | testWound | wakeSlot | endLoad | restart =>
    simp only [perform, State.stopSlot, State.testWound, State.wakeSlot, State.endLoad, State.restart]
    (repeat' split) <;> simp [State.freezeFades, State.releaseChannels, State.holdChannels, State.releaseZones]
  -- the Narration Unit
  | resumeVoices => rfl
  | cutVoice | sampleVoice | idleVoice =>
    simp only [perform, State.cutVoice, State.sampleVoice, State.idleVoice]
    (repeat' split) <;> simp [State.reportStarving]
  -- the Motion Unit
  | removeReason | homeByCue | stopStalled | safeAxis | clearHold => rfl
  | addReason | haltAxis | endHalt | giveUpAxis | arrive | findHome | stallAtTake =>
    simp only [perform, State.addReason, State.haltAxis, State.endHalt, State.giveUpAxis, State.arrive, State.findHome,
      State.stallAtTake]
    (repeat' split) <;> simp [State.removeHoming, State.mapHoming, State.stallAxis]
  -- the Lamp Unit
  | safeChannel => rfl
  | giveUpChannel =>
    simp only [perform, State.giveUpChannel]
    split <;> simp
  -- the Request Unit
  | waitingPhase | endHoming => rfl
  | endScan | dropAll => exact ctl_dropWhere ..
  | judgeWaiting => exact ctl_judgeWaiting ..
  | askScan | reRequest | judgePreempting =>
    simp only [perform, State.askScan, State.reRequest, State.judgePreempting]
    (repeat' split) <;> simp
  | autoRequest =>
    simp only [perform, State.autoRequest]
    split
    · exact ctl_request ..
    · rfl

end Sys2Proof.Machine
end

section
/-! PROOFS: SAFE (R177, R178, R126). It lasts through the tasks of its entry: none but those that tell Show Control touches
it (`ctl_perform`), and these leave SAFE alone; the house lights last with it (`HouseLightsLaw`). -/

namespace Sys2Proof.Machine

open State

/-! ## SAFE lasts through an event's tasks -/

/-- In SAFE no task changes the show state: the quiet test ends DRAINING alone, a load's end START alone (R173, R174). -/
theorem safe_perform (t : Task) {s : State} (safe : s.ctl.state = .safe) : (perform t s).1.ctl.state = .safe := by
  cases tells : t.tellsShow with
  | false => rw [ctl_perform t s tells, safe]
  | true =>
    cases t with
    | quietTest =>
      have stays : s.testQuiet = s := if_neg (by simp [safe])
      exact (congrArg (·.ctl.state) stays).trans safe
    | safeTrigger => rw [perform_safeTrigger_of_closed (.inr safe), safe]
    | leaveStart taken =>
      have stays : s.leaveStart taken = (s, []) := if_pos (by simp [safe])
      exact (congrArg (·.1.ctl.state) stays).trans safe
    | startSnapshot reason => exact safe
    | _ => cases tells

theorem safe_runTasks (n : Nat) (ts : List Task) {s : State} (safe : s.ctl.state = .safe) :
    (runTasks n ts s).ctl.state = .safe := by
  induction n generalizing ts s with
  | zero => exact safe
  | succ n ih =>
    cases ts with
    | nil => exact safe
    | cons t ts => exact ih _ (safe_perform t safe)

theorem Changes.houseLights {s t : State} (chain : Changes s t) (law : HouseLightsLaw s) : HouseLightsLaw t := by
  induction chain with
  | refl => exact law
  | tail _ change ih => exact change.houseLights ih

/-- An event whose tasks begin in SAFE with the house lights set ends so (R126). -/
theorem safe_conclude (e : Effect) (safe : e.1.ctl.state = .safe) (lights : e.1.lamp.houseLights = true) :
    (conclude e).ctl.state = .safe ∧ (conclude e).lamp.houseLights = true := by
  have ends : (runTasks Config.agendaFuel e.2 e.1).ctl.state = .safe := safe_runTasks _ _ safe
  have law : HouseLightsLaw (runTasks Config.agendaFuel e.2 e.1) := (changes_runTasks _ _ e.1).houseLights fun _ => lights
  unfold conclude
  generalize runTasks Config.agendaFuel e.2 e.1 = v at ends law
  have inside := interior_settle v
  exact ⟨(congrArg ShowControl.state inside.ctl).trans ends, (congrArg LampUnit.houseLights inside.lamp).trans (law ends)⟩

namespace State

/-! ## The two cues -/

section Cues

variable {s : State} {c : TakenCue}

theorem cueEnterSafe_of_closed (closed : s.ctl.state = .safe ∨ s.ctl.state = .unconfigured) :
    s.cueEnterSafe c = s.accept c := by
  rcases closed with state | state <;> simp only [cueEnterSafe, state]

theorem cueEnterSafe_of_open (opened : s.ctl.state = .run ∨ s.ctl.state = .hold ∨ s.ctl.state = .draining) :
    s.cueEnterSafe c = (s.answer c .accepted).enterSafe := by
  rcases opened with state | state | state <;> simp only [cueEnterSafe, state]

theorem cueLeaveSafe_of_other (other : s.ctl.state ≠ .safe) : s.cueLeaveSafe c = s.refuse c .wrongState := if_pos other

theorem cueLeaveSafe_of_severe (safe : s.ctl.state = .safe) (severe : ∃ b : Bank, (s.bank b).isSevere = true) :
    s.cueLeaveSafe c = s.refuse c .severeOutstanding :=
  (if_neg (not_not.2 safe)).trans (if_pos (alarmed_iff.2 severe))

theorem cueLeaveSafe_of_calm (safe : s.ctl.state = .safe) (calm : ∀ b : Bank, (s.bank b).isSevere = false) :
    s.cueLeaveSafe c = ((s.answer c .accepted).changeShow .run, runNotices) := by
  refine (if_neg (not_not.2 safe)).trans (if_neg fun alarmed => ?_)
  obtain ⟨b, severe⟩ := alarmed_iff.1 alarmed
  cases severe.symm.trans (calm b)

end Cues

/-- Settles O38: ENTER SAFE by show state, the part SAFE entry leaves, and LEAVE SAFE by the banks. -/
theorem safeIsEnteredAndLeft : Obligations.SafeIsEnteredAndLeft := by
  unfold Obligations.SafeIsEnteredAndLeft
  intro s c rest accepted
  refine ⟨fun head => ⟨fun closed => ?closed, fun opened => ?opened⟩,
    fun head => ⟨fun other => ?other, fun safe severe => ?severe, fun safe calm => ?calm⟩⟩
  case closed =>
    have taken : exec .enterSafe s = _ := exec_of_headIs head
    rw [unitOf, cueEnterSafe_of_closed (s := s.consumed rest) closed] at taken
    exact leaves_of_conclude taken
  case opened =>
    intro v notices
    have taken : exec .enterSafe s = _ := exec_of_headIs head
    rw [unitOf, cueEnterSafe_of_open (s := s.consumed rest) opened,
      show (s.consumed rest).answer c .accepted = accepted from rfl] at taken
    have enters : accepted.enterSafe = ({ v with lamp := { v.lamp with houseLights := true } }, notices) :=
      Prod.ext rfl (tasks_enterSafe accepted)
    have safe : accepted.enterSafe.1.ctl.state = .safe := congrArg ShowControl.state (ctl_enterSafe accepted)
    have lights : accepted.enterSafe.1.lamp.houseLights = true := congrArg LampUnit.houseLights (lamp_enterSafe accepted)
    have stays := safe_conclude accepted.enterSafe safe lights
    have asked : Asks .enterSafe s { v with lamp := { v.lamp with houseLights := true } } notices := by
      rw [enters] at taken
      exact taken
    exact ⟨asked, ctl_enterSafe accepted, fun none => (enterSafe_of_no_restore (s := accepted) none).1,
      fun restores => (enterSafe_of_restore (s := accepted) restores).1, _, taken, stays⟩
  case other =>
    have taken : exec .leaveSafe s = _ := exec_of_headIs head
    rw [unitOf, cueLeaveSafe_of_other (s := s.consumed rest) other] at taken
    exact leaves_of_conclude taken
  case severe =>
    have taken : exec .leaveSafe s = _ := exec_of_headIs head
    rw [unitOf, cueLeaveSafe_of_severe (s := s.consumed rest) safe severe] at taken
    exact leaves_of_conclude taken
  case calm =>
    intro v
    have taken : exec .leaveSafe s = _ := exec_of_headIs head
    rw [unitOf, cueLeaveSafe_of_calm (s := s.consumed rest) safe calm] at taken
    have told : accepted.changeShow .run = { v with ctl := { s.ctl with state := .run } } := by
      have state : accepted.ctl.state = .safe := safe
      rw [changeShow, state]
      rfl
    rw [show (s.consumed rest).answer c .accepted = accepted from rfl, told] at taken
    exact taken

end State

end Sys2Proof.Machine
end

section
/-! PROOFS: the power warning, the Fault Page and the snapshot (R176, R183 to R185). The image of a snapshot as areas one behind
another (`snapshotImage_eq`), each read back at its place (`slice_table`); then the writes' bytes and their answers. -/

namespace Sys2Proof.Machine

/-! ## Areas of a record -/

/-- A slice that lies within an area of a record. -/
theorem slice_within {before area behind : List Byte} {i j n : Nat} (at' : before.length + j = i)
    (fits : j + n ≤ area.length) : slice (before ++ (area ++ behind)) i n = slice area j n := by
  subst at'
  rw [slice_append_right _ _ (Nat.le_add_right ..), slice_append_left _ _ (by omega), Nat.add_sub_cancel_left]

/-- A table's entry within its area. -/
theorem slice_table {n m : Nat} (f : Fin n → List Byte) (length : ∀ a, (f a).length = m) (k : Fin n) :
    slice ((fins n).flatMap f) (m * k.val) m = f k := by
  rw [slice_flatMap _ _ length k.val (by simp), fins_getElem]

/-- A table's entry within a record that holds the table. -/
theorem slice_entry {n m i : Nat} {before behind : List Byte} (f : Fin n → List Byte) (length : ∀ a, (f a).length = m)
    (k : Fin n) (at' : before.length + m * k.val = i) :
    slice (before ++ ((fins n).flatMap f ++ behind)) i m = f k := by
  have fits : m * k.val + m ≤ ((fins n).flatMap f).length := by
    rw [length_flatMap_of _ _ length, fins_length, ← Nat.mul_succ]
    exact Nat.mul_le_mul_left _ k.isLt
  rw [slice_within at' fits, slice_table f length]

theorem length_bytes16 (n : Nat) : (bytes16 n).length = 2 := rfl

theorem length_bytes32 (n : Nat) : (bytes32 n).length = 4 := rfl

theorem length_zeros (n : Nat) : (zeros n).length = n := List.length_replicate

theorem padTo_of_length {n : Nat} {l : List Byte} (whole : l.length = n) : padTo n l = l := by
  simp [padTo, zeros, whole]

theorem length_slice {l : List Byte} {i n : Nat} (fits : i + n ≤ l.length) : (slice l i n).length = n := by
  simp only [slice, List.length_take, List.length_drop]
  omega

namespace State

/-! ## The image of a snapshot (R184, 12.8) -/

section Image

variable (s : State) (reason : SnapshotReason) (scene : Fin 8 → Byte)

def imageHeader : List Byte :=
  [0x49, 0x56, 0x53, 0x53] ++ bytes32 s.dir.sequence.toNat ++ [byteOf reason.code, 0, 0, 0] ++ bytes32 s.showTime.toNat

def imageSlots : List Byte := (fins 8).flatMap fun k => (s.slot k).entryBytes (scene k)

def imageLevels : List Byte := (fins 128).flatMap fun c => bytes16 (s.channel c).level

/-- An axis's entry: its position, and whether it is homed. -/
def axisEntry (n : Fin 12) : List Byte := bytes16 (s.syncedAxis n).position ++ [byteOf (s.axis n).homed.toNat, 0]

def imageAxes : List Byte := (fins 12).flatMap s.axisEntry

def imageLanguages : List Byte := (fins 8).flatMap fun z => [byteOf (s.zone z).language]

theorem length_imageHeader : (s.imageHeader reason).length = 16 := rfl

theorem length_imageSlots : (s.imageSlots scene).length = 128 := by
  rw [imageSlots, length_flatMap_of _ _ fun k => Slot.length_entryBytes .., fins_length]

theorem length_imageLevels : s.imageLevels.length = 256 := by
  rw [imageLevels, length_flatMap_of _ _ fun c => length_bytes16 _, fins_length]

theorem length_imageAxes : s.imageAxes.length = 48 := by
  rw [imageAxes, length_flatMap_of (m := 4) _ _ fun n => rfl, fins_length]

theorem length_imageLanguages : s.imageLanguages.length = 8 := by
  rw [imageLanguages, length_flatMap_of (m := 1) _ _ fun z => rfl, fins_length]

/-- The areas of the image with the reserved bytes between them (12.8). -/
theorem snapshotImage_eq : s.snapshotImage reason scene =
    s.imageHeader reason ++ (zeros 48 ++ (s.imageSlots scene ++ (s.imageLevels ++ (zeros 256 ++ (s.imageAxes ++
      (s.imageLanguages ++ zeros 200)))))) := by
  have languages : (fins 8).map (fun z => byteOf (s.zone z).language) = s.imageLanguages := List.map_eq_flatMap ..
  have header : padTo 64 (s.imageHeader reason) = s.imageHeader reason ++ zeros 48 := rfl
  have body : padTo 0x2C0 (padTo 64 (s.imageHeader reason) ++ (s.imageSlots scene ++ s.imageLevels)) =
      padTo 64 (s.imageHeader reason) ++ (s.imageSlots scene ++ s.imageLevels) ++ zeros 256 := by
    rw [header, padTo]
    simp [length_imageHeader, length_zeros, length_imageSlots, length_imageLevels]
  show padTo 960 (padTo 0x2C0 (padTo 64 (s.imageHeader reason) ++ (s.imageSlots scene ++ s.imageLevels)) ++ s.imageAxes ++
    (fins 8).map fun z => byteOf (s.zone z).language) = _
  rw [body, header, languages, padTo]
  simp [length_imageHeader, length_zeros, length_imageSlots, length_imageLevels, length_imageAxes, length_imageLanguages]

theorem length_snapshotImage : (s.snapshotImage reason scene).length = 960 := by
  rw [snapshotImage_eq]
  simp [length_imageHeader, length_zeros, length_imageSlots, length_imageLevels, length_imageAxes, length_imageLanguages]

theorem slice_snapshotImage_header : slice (s.snapshotImage reason scene) 0 16 = s.imageHeader reason := by
  rw [snapshotImage_eq, slice_append_left _ _ (by rw [length_imageHeader])]
  rfl

theorem slice_snapshotImage_slot (k : Fin 8) : slice (s.snapshotImage reason scene) (0x040 + 16 * k.val) 16 =
    (s.slot k).entryBytes (scene k) := by
  rw [snapshotImage_eq, ← List.append_assoc]
  exact slice_entry _ (fun k => Slot.length_entryBytes ..) k (by simp [length_imageHeader, length_zeros])

theorem slice_snapshotImage_level (c : Fin 128) : slice (s.snapshotImage reason scene) (0x0C0 + 2 * c.val) 2 =
    bytes16 (s.channel c).level := by
  rw [snapshotImage_eq, ← List.append_assoc, ← List.append_assoc]
  exact slice_entry _ (fun c => length_bytes16 _) c (by simp [length_imageHeader, length_zeros, length_imageSlots])

theorem slice_snapshotImage_axis (n : Fin 12) : slice (s.snapshotImage reason scene) (0x2C0 + 4 * n.val) 4 =
    s.axisEntry n := by
  rw [snapshotImage_eq, ← List.append_assoc, ← List.append_assoc, ← List.append_assoc, ← List.append_assoc]
  exact slice_entry s.axisEntry (fun n => rfl) n
    (by simp [length_imageHeader, length_zeros, length_imageSlots, length_imageLevels])

theorem slice_snapshotImage_language (z : Fin 8) : slice (s.snapshotImage reason scene) (0x2F0 + z.val) 1 =
    [byteOf (s.zone z).language] := by
  rw [snapshotImage_eq, ← List.append_assoc, ← List.append_assoc, ← List.append_assoc, ← List.append_assoc,
    ← List.append_assoc]
  exact slice_entry (fun z => [byteOf (s.zone z).language]) (fun z => rfl) z
    (by simp [length_imageHeader, length_zeros, length_imageSlots, length_imageLevels, length_imageAxes])

end Image

/-! ## What is written (12.7, 12.8) -/

theorem writeOf_page (s : State) (d : Directory) {l : Nat} (writing : s.fault.writer = some l) :
    s.writeOf d .page = (.page, d.faultPage + 64 * l, faultPageLine s.fault.banks s.dir.sequence l) := by
  rw [writeOf, writing]; rfl

section Snapshot

variable {s : State} {d : Directory} {w : Snapshot}

theorem writeOf_snapshot (writing : s.ctl.snapshot = some w) : s.writeOf d .snapshot =
    if w.due = 0 then (.snapshot, d.snapshotArea + 0x3C0, markerLine none)
    else if w.due ≤ 15 then
      (.snapshot, d.snapshotArea + 64 * (w.due - 1), padTo 64 (slice w.image (64 * (w.due - 1)) 64))
    else (.snapshot, d.snapshotArea + 0x3C0, markerLine (some w.sequence)) := by
  rw [writeOf, writing]

/-- A line of a whole image needs no bytes after it. -/
theorem writeOf_snapshot_line (writing : s.ctl.snapshot = some w) (least : 1 ≤ w.due) (most : w.due ≤ 15)
    (whole : w.image.length = 960) : s.writeOf d .snapshot =
      (.snapshot, d.snapshotArea + 64 * (w.due - 1), slice w.image (64 * (w.due - 1)) 64) := by
  rw [writeOf_snapshot writing, if_neg (by omega), if_pos most, padTo_of_length (length_slice (by omega))]

end Snapshot

/-! ## The power warning (R176) -/

section Power

variable {s : State}

theorem exec_powerWarning (released : s.resetLow = false) (was : s.lines.power = .inactive) :
    exec .powerWarning s = .next (conclude (s.setPowerLine .active).warnPower) := by
  show execPowerWarning s = _
  simp [execPowerWarning, onLine, released, was]

theorem exec_powerWarningInactive (released : s.resetLow = false) (was : s.lines.power = .active) :
    exec .powerWarningInactive s = .next (conclude (s.setPowerLine .inactive, [])) := by
  show execPowerWarningInactive s = _
  simp [execPowerWarningInactive, onLine, released, was]

theorem warnPower_of_idle (idle : s.ctl.state = .start ∨ s.ctl.state = .unconfigured) :
    s.warnPower = (s.log .powerWarning [], []) := by
  rcases idle with state | state <;> simp only [warnPower, state]

theorem warnPower_of_halted (halted : s.ctl.state = .hold ∨ s.ctl.state = .draining ∨ s.ctl.state = .safe) :
    s.warnPower = (s.log .powerWarning [], [.startSnapshot .powerWarning]) := by
  rcases halted with state | state | state <;> simp only [warnPower, state]

theorem warnPower_of_run (runs : s.ctl.state = .run) : s.warnPower = (s.log .powerWarning []).enterHold .powerWarning := by
  simp only [warnPower, runs]

end Power

/-! ## The answers to a write (R183, R185) -/

section Answers

variable {s : State} {f : InFlight}

theorem exec_faultPageLineDone (released : s.resetLow = false) (flying : s.port = some f) (purpose : f.purpose = .page) :
    exec .faultPageLineDone s =
      .next (conclude (if f.live then s.freePort.pageLineWritten else s.freePort, [])) :=
  onAnswer_of_flying _ released flying (by rw [purpose]; rfl)

theorem exec_faultPageWriteFailed (released : s.resetLow = false) (flying : s.port = some f)
    (purpose : f.purpose = .page) : exec .faultPageWriteFailed s = .next (conclude
      ((if f.live then { s.freePort with fault := { s.fault with writer := none } } else s.freePort).logMarking false
        .faultPageWriteFailed [], [])) :=
  onAnswer_of_flying _ released flying (by rw [purpose]; rfl)

theorem exec_snapshotLineDone (released : s.resetLow = false) (flying : s.port = some f) (purpose : f.purpose = .snapshot) :
    exec .snapshotLineDone s =
      .next (conclude (if f.live then s.freePort.snapshotLineWritten else s.freePort, [])) :=
  onAnswer_of_flying _ released flying (by rw [purpose]; rfl)

theorem exec_snapshotFailed (released : s.resetLow = false) (flying : s.port = some f) (purpose : f.purpose = .snapshot) :
    exec .snapshotFailed s = .next (conclude
      ((if f.live then { s.freePort with ctl := { s.ctl with snapshot := none } } else s.freePort).log .snapshotFailed [],
        [])) :=
  onAnswer_of_flying _ released flying (by rw [purpose]; rfl)

theorem pageLineWritten_of_writing {l : Nat} (writing : s.fault.writer = some l) : s.pageLineWritten =
    { s with fault := { s.fault with writer := if l < 3 then some (l + 1) else none } } := by
  rw [pageLineWritten, writing]

theorem snapshotLineWritten_of_more {w : Snapshot} (writing : s.ctl.snapshot = some w) (more : w.due < 16) :
    s.snapshotLineWritten = { s with ctl := { s.ctl with snapshot := some { w with due := w.due + 1 } } } := by
  rw [snapshotLineWritten, writing]
  exact if_pos more

theorem snapshotLineWritten_of_last {w : Snapshot} (writing : s.ctl.snapshot = some w) (last : 16 ≤ w.due) :
    s.snapshotLineWritten =
      ({ s with ctl := { s.ctl with snapshot := none } } : State).produce (.snapshotDone w.reason w.sequence) := by
  rw [snapshotLineWritten, writing]
  exact if_neg (Nat.not_lt.2 last)

/-- A failed write of the page logs its fault, which does not mark the page, beside the end of its pass (R183). -/
theorem logMarking_pageFailed (writer : Option Nat) :
    (({ s with fault := { s.fault with writer := writer } } : State).logMarking false .faultPageWriteFailed []) =
      { s with report := (s.log .faultPageWriteFailed []).report
               fault := { banks := (s.log .faultPageWriteFailed []).fault.banks, dirty := s.fault.dirty,
                          writer := writer } } := by
  simp only [logMarking, log, Bool.false_and, Bool.or_false]
  rfl

end Answers

/-! ## The entries of an image -/

/-- A slot's entry with its scene byte, which is any byte for a FREE slot (log 15), and an axis's entry. -/
theorem entries_of_snapshotImage (s : State) (reason : SnapshotReason) :
    let image := s.snapshotImage reason s.sceneByte
    (∀ k : Fin 8, let x := s.slot k
      ∃ scene, slice image (0x040 + 16 * k.val) 16 = [byteOf x.state.code, scene] ++ bytes16 x.next ++ bytes32 x.clock ++
          (match x.loop with
           | none => [0xFF, 0xFF, 0, 0]
           | some l => bytes16 l.index ++ bytes16 l.remaining) ++ [0, 0, 0, 0] ∧
        ∀ h, x.holding = some h → scene = byteOf h.scene.val) ∧
    ∀ n : Fin 12, slice image (0x2C0 + 4 * n.val) 4 =
      bytes16 (s.syncedAxis n).position ++ [if (s.axis n).homed then 1 else 0, 0] := by
  refine ⟨fun k => ⟨s.sceneByte k, ?_, fun h holds => ?_⟩, fun n => ?_⟩
  · rw [slice_snapshotImage_slot]
    rfl
  · rw [sceneByte, holds]
  · rw [slice_snapshotImage_axis, axisEntry]
    cases (s.axis n).homed <;> rfl

/-- Settles O59: the power warning, a snapshot's start, the bytes of each write, and the answers. -/
theorem powerPageAndSnapshot : Obligations.PowerPageAndSnapshot := by
  unfold Obligations.PowerPageAndSnapshot
  intro s released at'
  refine ⟨fun was => ?warns, fun was => leaves_of_conclude (exec_powerWarningInactive released was), fun reason => ?starts,
    fun d l writing => ?page, fun d w writing => ?snapshot, fun f flying => ?answers⟩
  case warns =>
    intro u
    have warned := exec_powerWarning released was
    refine ⟨fun idle => ?_, fun halted => ?_, fun runs => ?_⟩
    · rw [warnPower_of_idle (s := s.setPowerLine .active) idle] at warned
      exact leaves_of_conclude warned
    · rw [warnPower_of_halted (s := s.setPowerLine .active) halted] at warned
      have asked : Asks .powerWarning s u [.startSnapshot .powerWarning] := warned
      refine ⟨asked, (u.startSnapshot .powerWarning).settle, ?_, closes_settle _⟩
      rw [← follow_of_last (t := .startSnapshot .powerWarning) (s := u) rfl]
      exact asked
    · rw [warnPower_of_run (s := s.setPowerLine .active) runs] at warned
      exact warned
  case starts =>
    obtain ⟨slots, axes⟩ := s.entries_of_snapshotImage reason
    have discarded : (s.startSnapshot reason).carriesLive Purpose.isSnapshot = false := by
      simp only [carriesLive, startSnapshot, discard, withdrawWrite]
      cases s.port with
      | none => rfl
      | some f => cases snapshot : f.purpose.isSnapshot <;> simp [snapshot]
    refine ⟨rfl, rfl, ?_, discarded, s.snapshotImage reason s.sceneByte, rfl, length_snapshotImage ..,
      slice_snapshotImage_header .., slots, slice_snapshotImage_level s reason _, axes, slice_snapshotImage_language s reason _⟩
    simp [perform, startSnapshot, withdrawWrite]
  case page =>
    intro record
    have bytes : record = fun b => (s.bank b).bytes := by
      funext b
      simp only [record, BankRecord.bytes]
      cases (s.bank b).severity <;> cases (s.bank b).code <;> rfl
    clear_value record
    subst bytes
    rw [writeOf_page s d writing]
    match l with
    | 0 | 1 => rfl
    | 2 => exact congrArg (fun line => (_, _, line)) (List.append_assoc ..).symm
    | _ + 3 => rfl
  case snapshot =>
    refine ⟨fun first => ?_, fun least most whole => writeOf_snapshot_line writing least most whole, fun last => ?_⟩
    · rw [writeOf_snapshot writing, if_pos first]; rfl
    · rw [writeOf_snapshot writing, if_neg (by omega), if_neg (by omega)]; rfl
  case answers =>
    intro free
    refine ⟨fun purpose => ⟨fun dead => ?_, fun l live writing => ?_, ?_⟩,
      fun purpose => ⟨fun dead => ⟨?_, ?_⟩, fun live => ?_, fun w live writing => ⟨fun more => ?_, fun last => ?_⟩⟩⟩
    · have done := exec_faultPageLineDone released flying purpose
      rw [dead] at done
      exact done
    · have done := exec_faultPageLineDone released flying purpose
      rw [if_pos live, pageLineWritten_of_writing (s := s.freePort) writing] at done
      exact done
    · intro logged
      have failed := exec_faultPageWriteFailed released flying purpose
      cases live : f.live with
      | false =>
        rw [live] at failed
        exact failed.trans (congrArg (fun u : State => Host.Outcome.next (conclude (u, [])))
          (logMarking_pageFailed (s := free) s.fault.writer))
      | true =>
        rw [if_pos live] at failed
        exact failed.trans (congrArg (fun u : State => Host.Outcome.next (conclude (u, [])))
          (logMarking_pageFailed (s := free) none))
    · have done := exec_snapshotLineDone released flying purpose
      rw [dead] at done
      exact leaves_of_conclude done
    · have failed := exec_snapshotFailed released flying purpose
      rw [dead] at failed
      exact leaves_of_conclude failed
    · have failed := exec_snapshotFailed released flying purpose
      rw [if_pos live] at failed
      exact leaves_of_conclude failed
    · have done := exec_snapshotLineDone released flying purpose
      rw [if_pos live, snapshotLineWritten_of_more (s := s.freePort) writing more] at done
      exact leaves_of_conclude done
    · have done := exec_snapshotLineDone released flying purpose
      rw [if_pos live, snapshotLineWritten_of_last (s := s.freePort) writing last] at done
      exact leaves_of_conclude done

end State

end Sys2Proof.Machine
end

section
/-! PROOFS: RESTORE SHOW and its read (R186, R187, R115, R128). When a restore may be done (`mayRestore_iff`), when a saved
slot is restored and what it becomes (`restoreOne_of_restorable`), what the restores of the slots leave alone
(`rest_foldl_restoreOne`), and the levels and languages restored. -/

namespace Sys2Proof.Machine

namespace State

/-! ## The cue and the marker (R186) -/

section Begin

variable {s : State} {c : TakenCue}

/-- Every slot FREE, every voice IDLE and no request queued (R186, R187). -/
def AtRest (s : State) : Prop := (∀ k, (s.slot k).state = .free) ∧ (∀ v, (s.voice v).state = .idle) ∧ s.req.queue = []

theorem mayRestore_iff : s.mayRestore = true ↔ s.AtRest := by
  simp only [mayRestore, AtRest, Bool.and_eq_true, all_fins_iff, beq_iff_eq, List.isEmpty_iff, and_assoc]

theorem cueRestoreShow_of_other (other : s.ctl.state ≠ .run) : s.cueRestoreShow c = s.refuse c .wrongState := if_pos other

theorem cueRestoreShow_of_run (runs : s.ctl.state = .run) : s.cueRestoreShow c =
    if s.mayRestore && s.ctl.snapshot.isNone && s.ctl.restore.isNone then
      ({ s.answer c .accepted with ctl := { s.ctl with restore := some ⟨none, []⟩ } }, [])
    else s.refuse c .busy := if_neg (not_not.2 runs)

/-- Nothing busy: the slots, the voices and the queue at rest, no snapshot being written, no restore under way. -/
theorem restoreBegins_iff : (s.mayRestore && s.ctl.snapshot.isNone && s.ctl.restore.isNone) = true ↔
    s.AtRest ∧ s.ctl.snapshot = none ∧ s.ctl.restore = none := by
  simp only [Bool.and_eq_true, mayRestore_iff, Option.isNone_iff_eq_none, and_assoc]

theorem cueRestoreShow_of_busy (runs : s.ctl.state = .run)
    (busy : ¬ (s.AtRest ∧ s.ctl.snapshot = none ∧ s.ctl.restore = none)) : s.cueRestoreShow c = s.refuse c .busy :=
  (cueRestoreShow_of_run runs).trans (if_neg (mt restoreBegins_iff.1 busy))

theorem cueRestoreShow_of_rest (runs : s.ctl.state = .run) (rest : s.AtRest) (snapshot : s.ctl.snapshot = none)
    (restore : s.ctl.restore = none) : s.cueRestoreShow c =
      ({ s.answer c .accepted with ctl := { s.ctl with restore := some ⟨none, []⟩ } }, []) :=
  (cueRestoreShow_of_run runs).trans (if_pos (restoreBegins_iff.2 ⟨rest, snapshot, restore⟩))

end Begin

theorem markerValid_iff {line : List Byte} {sequence : Word} : markerValid line sequence = true ↔
    word32At line 0 = 0x3C5AA5C3 ∧ word32At line 4 = sequence.toNat := by
  simp only [markerValid, Bool.and_eq_true, beq_iff_eq, Config.markerTag]

/-! ## The answers to the restore reader's reads -/

section Read

variable {s : State} {f : InFlight} {r : Restore} {data : List Byte} {n : Nat}

theorem exec_restoreReadFailed (released : s.resetLow = false) (flying : s.port = some f) (purpose : f.purpose = .restore) :
    exec .restoreReadFailed s = .next (conclude
      (if f.live then
        (({ s.freePort.log .memoryErrorInternal [f.addr, 3] with ctl := { s.ctl with restore := none } } : State).produce
          (.restoreDone .failed 0), [])
      else (s.freePort.log .memoryErrorInternal [f.addr, 3], []))) := by
  refine (onAnswer_of_flying _ released flying (by rw [purpose]; rfl)).trans ?_
  rw [purpose]
  rfl

theorem exec_restoreLineArrives (released : s.resetLow = false) (flying : s.port = some f) (purpose : f.purpose = .restore)
    (restores : s.ctl.restore = some r) (length : data.length = f.length) : exec (.restoreLineArrives data) s =
      .next (conclude (if f.live then s.freePort.takeRestoreLine r data else (s.freePort, []))) := by
  refine (onAnswer_of_flying _ released flying (by simp [purpose, Purpose.isRestore, length])).trans ?_
  rw [restores]

theorem takeRestoreLine_of_marker (marker : r.line = none) : s.takeRestoreLine r data =
    if markerValid data s.dir.sequence then ({ s with ctl := { s.ctl with restore := some ⟨some 0, []⟩ } }, [])
    else (({ s with ctl := { s.ctl with restore := none } } : State).produce (.restoreDone .invalid 0), []) := by
  rw [takeRestoreLine, marker]

theorem takeRestoreLine_of_more (line : r.line = some n) (more : n < 14) : s.takeRestoreLine r data =
    ({ s with ctl := { s.ctl with restore := some ⟨some (n + 1), r.read ++ data⟩ } }, []) := by
  rw [takeRestoreLine, line]
  exact if_pos more

theorem takeRestoreLine_of_last (line : r.line = some n) (last : 14 ≤ n) : s.takeRestoreLine r data =
    s.endRestore (r.read ++ data) := by
  rw [takeRestoreLine, line]
  exact if_neg (Nat.not_lt.2 last)

end Read

/-! ## One saved slot (R115, R187) -/

section One

variable {s : State} {lines : List Byte} {before : List (Fin 8)} {k : Fin 8} {n : Fin 32}

/-- The saved entry is of a scene that runs, is enabled, and whose zones are free. -/
def Restorable (s : State) (lines : List Byte) (k : Fin 8) (n : Fin 32) : Prop :=
  (savedSlot lines k).scene = n.val ∧ 1 ≤ (savedSlot lines k).state ∧ (savedSlot lines k).state ≤ 3 ∧
    (s.sceneRecord n).isEnabled = true ∧ ∀ z ∈ (s.sceneRecord n).zones, (s.zone z).closed = false ∧
      (s.zone z).owner = none ∧ (s.zone z).reservation = none ∧ (s.zone z).cueHoming = []

theorem restorable_iff (named : (savedSlot lines k).scene = n.val) : s.Restorable lines k n ↔
    (savedRuns (savedSlot lines k).state && (s.sceneRecord n).isEnabled && s.mayRestoreClaim n) = true := by
  simp only [Restorable, named, savedRuns, mayRestoreClaim, Bool.and_eq_true, decide_eq_true_eq, List.all_eq_true,
    Zone.isFree_iff, true_and, and_assoc]

theorem restoreOne_of_named (named : (savedSlot lines k).scene = n.val) : restoreOne lines ⟨s, before⟩ k =
    if savedRuns (savedSlot lines k).state && (s.sceneRecord n).isEnabled && s.mayRestoreClaim n then
      ⟨s.restoreSlot k n (savedSlot lines k), before ++ [k]⟩
    else ⟨s, before⟩ := by
  simp only [restoreOne, numbered_eq_some.2 named]

theorem restoreOne_of_restorable (may : s.Restorable lines k n) : restoreOne lines ⟨s, before⟩ k =
    ⟨s.restoreSlot k n (savedSlot lines k), before ++ [k]⟩ :=
  (restoreOne_of_named may.1).trans (if_pos ((restorable_iff may.1).1 may))

theorem restoreOne_of_unrestorable (none : ∀ n, ¬ s.Restorable lines k n) :
    restoreOne lines ⟨s, before⟩ k = ⟨s, before⟩ := by
  cases scene : numbered 32 (savedSlot lines k).scene with
  | none => simp only [restoreOne, scene]
  | some n =>
    have named := numbered_eq_some.1 scene
    exact (restoreOne_of_named named).trans (if_neg (mt (restorable_iff named).2 (none n)))

theorem restoreSlot_eq (s : State) (k : Fin 8) (n : Fin 32) (saved : SavedSlot) : s.restoreSlot k n saved =
    { (s.claim k n) with
      slots := put s.slots k { Slot.reset with
        state := .loading, holding := some ⟨n, (s.sceneRecord n).sceneClass, s.showTime⟩, next := saved.next,
        fetch := saved.next, loop := saved.loop, savedClock := some saved.clock }
      pins := put s.pins (slotPlace k)
        (some ⟨⟨(s.sceneRecord n).script, (s.sceneRecord n).script + 16 * (s.sceneRecord n).steps⟩, none⟩) } := rfl

end One

/-! ## The restores of all slots leave all but zones, slots and pins alone -/

theorem rest_restoreOne (lines : List Byte) (r : Restored) (k : Fin 8) : { (restoreOne lines r k).state with
    zones := r.state.zones, slots := r.state.slots, pins := r.state.pins } = r.state := by
  unfold restoreOne
  dsimp only
  split
  · rfl
  · split
    · rw [restoreSlot_eq]; rfl
    · rfl

theorem rest_foldl_restoreOne (lines : List Byte) (slots : List (Fin 8)) (r : Restored) :
    { (slots.foldl (restoreOne lines) r).state with
      zones := r.state.zones, slots := r.state.slots, pins := r.state.pins } = r.state := by
  induction slots generalizing r with
  | nil => rfl
  | cons k slots ih =>
    have later := congrArg (fun u : State =>
      { u with zones := r.state.zones, slots := r.state.slots, pins := r.state.pins }) (ih (restoreOne lines r k))
    exact later.trans (rest_restoreOne lines r k)

/-! ## Levels and languages (R128, R187) -/

/-- What a part takes from the directory only. -/
theorem zoneRecord_of_dir {s w : State} (dir : w.dir = s.dir) (z : Fin 8) : w.zoneRecord z = s.zoneRecord z := by
  simp only [zoneRecord, dir]

theorem languageCount_of_dir {s w : State} (dir : w.dir = s.dir) : w.languageCount = s.languageCount := by
  simp only [languageCount, dir]

section Levels

variable (s : State) (lines : List Byte) (slots : List (Fin 8))

/-- The part with the saved levels and languages. -/
def withSaved : State := (s.restoreLevels lines slots).restoreLanguages lines

/-- A restored slot owns the channel's zone. -/
theorem restoredOwner_eq_some_iff {s : State} {c : Channel} {slots : List (Fin 8)} {k : Fin 8} :
    s.restoredOwner c slots = some k ↔ k ∈ slots ∧ ∃ z, c.zone = some z ∧ (s.zone z).owner = some k := by
  simp only [restoredOwner, Option.filter_eq_some_iff, Option.bind_eq_some_iff, List.contains_iff_mem, and_comm]

theorem frame_withSaved (lamp : LampUnit) :
    { s.withSaved lines slots with lamp := lamp, zones := s.zones } = { s with lamp := lamp } := rfl

theorem channel_withSaved (c : Fin 128) : (s.withSaved lines slots).channel c =
    (s.channel c).restored (word16At lines (0x0C0 + 2 * c.val)) (s.restoredOwner (s.channel c) slots) s.showTime :=
  tabulate_get ..

variable {s slots} in
theorem channel_withSaved_of_owned {c : Fin 128} {k : Fin 8}
    (owned : k ∈ slots ∧ ∃ z, (s.channel c).zone = some z ∧ (s.zone z).owner = some k) :
    (s.withSaved lines slots).channel c = { s.channel c with
      owner := some k, level := word16At lines (0x0C0 + 2 * c.val), fade := none, releasing := false } := by
  rw [channel_withSaved, restoredOwner_eq_some_iff.2 owned]
  rfl

variable {s slots} in
theorem channel_withSaved_of_unowned {c : Fin 128}
    (unowned : ∀ k, ¬ (k ∈ slots ∧ ∃ z, (s.channel c).zone = some z ∧ (s.zone z).owner = some k)) :
    (s.withSaved lines slots).channel c = { s.channel c with
      level := word16At lines (0x0C0 + 2 * c.val)
      fade := some ⟨word16At lines (0x0C0 + 2 * c.val), (s.channel c).base, 1000, 0, some s.showTime⟩ } := by
  have nobody : s.restoredOwner (s.channel c) slots = none :=
    Option.eq_none_iff_forall_ne_some.2 fun k owner => unowned k (restoredOwner_eq_some_iff.1 owner)
  rw [channel_withSaved, nobody]
  rfl

theorem zone_withSaved (z : Fin 8) : (s.withSaved lines slots).zone z =
    if (s.zoneRecord z).isEnabled then
      { s.zone z with
        language := if byteAt lines (0x2F0 + z.val) < s.languageCount then byteAt lines (0x2F0 + z.val)
          else (s.zoneRecord z).defaultLanguage }
    else s.zone z := tabulate_get ..

/-- The saved entry lies beyond the script's `steps`, or its clock beyond the clock's end (R115). -/
theorem isFaulty_iff {saved : SavedSlot} {steps : Nat} :
    saved.isFaulty steps = true ↔ steps < saved.next ∨ 3600000 < saved.clock :=
  Bool.or_eq_true_iff.trans (or_congr decide_eq_true_iff decide_eq_true_iff)

/-- What the restore asks of a restored slot: a script fault for an entry beyond the script or the clock's end (R115). -/
theorem restoredTask_eq (k : Fin 8) : s.restoredTask lines k =
    if (s.slotScene k).steps < (savedSlot lines k).next ∨ 3600000 < (savedSlot lines k).clock then .faultRestored k
    else .endLoad k none :=
  if_congr isFaulty_iff rfl rfl

end Levels

section End

variable {s : State} {lines : List Byte}

theorem endRestore_of_busy (busy : ¬ s.AtRest) : s.endRestore lines =
    (({ s with ctl := { s.ctl with restore := none } } : State).produce (.restoreDone .busy 0), []) :=
  if_neg (mt mayRestore_iff.1 busy)

theorem endRestore_of_rest (rest : s.AtRest) :
    let x := (fins 8).foldl (restoreOne lines) ⟨{ s with ctl := { s.ctl with restore := none } }, []⟩
    let u := x.state.withSaved lines x.slots
    s.endRestore lines = (u.produce (.restoreDone .restored x.slots.length), x.slots.map (u.restoredTask lines)) :=
  if_pos (mayRestore_iff.2 rest)

end End

/-- Settles O60: the cue, the answers line by line, the restore at the last line, and one saved slot. -/
theorem restoreIsRead : Obligations.RestoreIsRead := by
  unfold Obligations.RestoreIsRead
  intro s ready
  refine ⟨fun c rest head => ?cue, fun f r released flying purpose restores => ?read, fun k => rfl,
    fun lines before k => ?one⟩
  case cue =>
    have taken : exec .restoreShow s = _ := exec_of_headIs head
    refine ⟨fun other => ?_, fun runs busy => ?_, fun runs rest snapshot restore => ?_⟩
    · rw [unitOf, cueRestoreShow_of_other (s := s.consumed _) other] at taken
      exact leaves_of_conclude taken
    · rw [unitOf, cueRestoreShow_of_busy (s := s.consumed _) runs busy] at taken
      exact leaves_of_conclude taken
    · rw [unitOf, cueRestoreShow_of_rest (s := s.consumed _) runs rest snapshot restore] at taken
      exact leaves_of_conclude taken
  case read =>
    intro free ended
    have failed := exec_restoreReadFailed released flying purpose
    refine ⟨fun dead => ?_, fun live => ?_, fun data length => ?lines⟩
    · rw [dead] at failed
      exact leaves_of_conclude failed
    · rw [if_pos live] at failed
      exact leaves_of_conclude failed
    case lines =>
      intro arrives
      have arrived : exec arrives s = _ := exec_restoreLineArrives released flying purpose restores length
      refine ⟨fun dead => ?dead, fun live marker => ?marker, fun n live line more => ?more, fun n live line last => ?last⟩
      case dead =>
        rw [dead] at arrived
        exact leaves_of_conclude arrived
      case marker =>
        intro valid
        rw [if_pos live, takeRestoreLine_of_marker marker] at arrived
        refine ⟨fun is => ?_, fun isnt => ?_⟩
        · rw [if_pos (markerValid_iff (sequence := s.freePort.dir.sequence) |>.2 is)] at arrived
          exact leaves_of_conclude arrived
        · rw [if_neg (mt (markerValid_iff (sequence := s.freePort.dir.sequence)).1 isnt)] at arrived
          exact leaves_of_conclude arrived
      case more =>
        rw [if_pos live, takeRestoreLine_of_more line more] at arrived
        exact leaves_of_conclude arrived
      case last =>
        rw [if_pos live, takeRestoreLine_of_last line last] at arrived
        refine ⟨fun busy => ?busy, fun rest => ?rest⟩
        case busy =>
          rw [endRestore_of_busy (s := s.freePort) busy] at arrived
          exact leaves_of_conclude arrived
        case rest =>
          intro lines x u faulty
          rw [endRestore_of_rest (s := s.freePort) rest] at arrived
          have asked : Asks arrives s (u.produce (.restoreDone .restored x.slots.length))
            (x.slots.map (u.restoredTask lines)) := arrived
          have stands : { x.state with zones := s.zones, slots := s.slots, pins := s.pins } = ended :=
            rest_foldl_restoreOne lines (fins 8) ⟨ended, []⟩
          have lamp := congrArg State.lamp stands
          have dir := congrArg State.dir stands
          have showTime : x.state.showTime = s.showTime := (congrArg State.showTime stands :)
          have channel (c : Fin 128) : x.state.channel c = s.channel c := congrArg (·.channels.get c) lamp
          have record (z : Fin 8) : x.state.zoneRecord z = s.zoneRecord z := zoneRecord_of_dir dir z
          have languages : x.state.languageCount = s.languageCount := languageCount_of_dir dir
          refine ⟨asked, fun k => ⟨fun is => ?faulty, fun isnt => ?sound⟩,
            fun c => ⟨fun k owned => ?owned, fun unowned => ?unowned⟩, fun z => ?zone,
            frame_withSaved x.state lines x.slots s.lamp, (congrArg LampUnit.houseLights lamp :),
            fun nothing => ?nothing, ?rest⟩
          case faulty => exact (restoredTask_eq u lines k).trans (if_pos is)
          case sound => exact (restoredTask_eq u lines k).trans (if_neg isnt)
          case owned =>
            rw [← channel c] at owned ⊢
            exact channel_withSaved_of_owned lines owned
          case unowned =>
            rw [← channel c] at unowned ⊢
            rw [← showTime]
            exact channel_withSaved_of_unowned lines unowned
          case zone =>
            rw [← record z, ← languages]
            exact zone_withSaved x.state lines x.slots z
          case nothing =>
            rw [nothing] at asked
            exact leaves_of_asks asked
          case rest =>
            have axes := congrArg State.axes stands
            have voices := congrArg State.voices stands
            have report := congrArg State.report stands
            have req := congrArg State.req stands
            exact ⟨axes, voices, report, req⟩
  case one =>
    intro saved e may
    refine ⟨fun none => ?_, fun n restorable => ?_⟩
    · have is : e = ⟨s, before⟩ := restoreOne_of_unrestorable none
      exact ⟨congrArg Restored.state is, congrArg Restored.slots is⟩
    · have is : e = ⟨s.restoreSlot k n saved, before ++ [k]⟩ := restoreOne_of_restorable restorable
      exact ⟨congrArg Restored.slots is, congrArg Restored.state is⟩

end State

end Sys2Proof.Machine
end

section
/-! PROOFS: the front of the queue, and that no command stops the part (log 1). The second goes through what the model's
laws say once: HARDWARE RESET by `resetAndRelease`, every other command by `reaches_exec`. -/

namespace Sys2Proof.Machine

/-! ## The front of the queue -/

theorem step_of_front {s : State} {c : Instr} {rest : List Instr} (front : s.pending = c :: rest) :
    step s = exec c { s with pending := rest } := by
  simp only [step, front]

/-- Settles O1: the queue's front is the command run. -/
theorem stepRunsFrontCommand : Obligations.StepRunsFrontCommand :=
  fun _ _ _ => step_of_front rfl

/-! ## No command stops the part -/

/-- Every way a command can end is a next state. -/
theorem Reaches.exists_next {s : State} {o : Answer} (reaches : Reaches s o) : ∃ t, o = .next t := by
  cases reaches with
  | nothing => exact ⟨s, rfl⟩
  | line l _ => exact ⟨{ s with lines := l }, rfl⟩
  | event u _ => exact ⟨u.settle, rfl⟩

/-- Settles O3: HARDWARE RESET answers the reset state with what it does not reach kept (R23), every other command ends in
one of the ways of `Reaches`. -/
theorem commandsNeverStop : Obligations.CommandsNeverStop := by
  intro c s
  by_cases hard : c = .hardwareReset
  · obtain ⟨resets, -⟩ := resetAndRelease s
    exact ⟨_, hard ▸ resets⟩
  · exact (reaches_exec c s hard).exists_next

end Sys2Proof.Machine
end
